-- ==== Sys2Proof/Word.lean ====
section
/-! DEFINITION. The word types of MP707-CRC8/OWPE (spec/00_scope.md R8; widths from 10_state.md R10 to R12 and
30_encoding.md R37, R39). Operations on them stand in Decode.lean and under Machine/. -/

namespace Sys2Proof

/-- A byte, 8 bits (R8): the accumulator, a buffer position, an operand of `fold`, `crcSet`, `writeByte`. -/
abbrev Byte := BitVec 8

/-- A 32-bit word (R37): the operand of `write4Bytes`, the result of `read4Bytes`. -/
abbrev Word := BitVec 32

/-- One host operation in format `H`, a 36-bit number: `sel` in bits 35..32, `opd` in bits 31..0 (R37). -/
abbrev HostWord := BitVec 36

/-- The selector field of format `H` (R37). -/
abbrev Selector := BitVec 4

/-- The eight bytes of a command or response frame, position 0 first on the transport (R11, R12, R39, R46). -/
structure Frame where
  b0 : Byte
  b1 : Byte
  b2 : Byte
  b3 : Byte
  b4 : Byte
  b5 : Byte
  b6 : Byte
  b7 : Byte
  deriving DecidableEq, Repr, Inhabited

end Sys2Proof
end

