-- ==== Sys2Proof/Config.lean ====
section
/-! DEFINITION. What an implementation fixes (the record `Cfg` of spec/00_scope.md R7) and the free values: the draws of
R8, which the rules do not determine (spec/20_memory.md R25 to R27, R34). The opaque constants have no body, so no proof
can see a value of theirs. -/

namespace Sys2Proof

/-- The two delays the source offers (R5, R69). -/
inductive DelayMs where
  | ms1
  | ms2
  deriving DecidableEq, Repr, Inhabited

/-- An echo depth, an integer 2..8 (R7, R64, R72): two header positions and `beyond` more. -/
structure EchoDepth where
  beyond : Fin 7
  deriving DecidableEq, Repr, Inhabited

/-- The order in which `fold` takes the bits of its byte (R7 `FOLD_ORDER`, R56). -/
inductive FoldOrder where
  | ascending
  | descending
  deriving DecidableEq, Repr

/-- The open parameters of R7. Its three other rows: `FOLD_ORDER` is fixed by R56 and conflict C3 (`foldOrder`, log 10),
`ED_READ` is not open (`edRead`), and `SID` belongs to the session record of the state (R13). -/
structure Cfg where
  /-- `CRC_INIT`; read by the host's checking protocol only, `checkItem` and `pseudoCrc` (R62; log 22). -/
  crcInit : Byte
  /-- `OPC_WBIT` (R41). -/
  opcWBit : Byte
  /-- `OPC_WBYTE` (R41). -/
  opcWByte : Byte
  /-- `OPC_W4` (R41). -/
  opcW4 : Byte
  /-- `OPC_R2` (R41). -/
  opcR2 : Byte
  /-- `OPC_RBYTE` (R41). -/
  opcRByte : Byte
  /-- `OPC_R4` (R41). -/
  opcR4 : Byte
  /-- `ED_RESET` (R72). -/
  edReset : EchoDepth
  /-- `ED_WBIT` (R72). -/
  edWBit : EchoDepth
  /-- `ED_WBYTE` (R72). -/
  edWByte : EchoDepth
  /-- `ED_W4` (R72). -/
  edW4 : EchoDepth
  /-- `DELAY(reset)` (R75). -/
  delayReset : DelayMs
  /-- `DELAY(writeBit)` (R75). -/
  delayWBit : DelayMs
  /-- `DELAY(read2BitPair)` (R75). -/
  delayR2 : DelayMs
  /-- `R2_MASK` (R47, D11, U13; log 11). -/
  r2Mask : Byte
  deriving DecidableEq, Repr, Inhabited

/-- The configuration of the modelled block: any value of `Cfg` (R7, R41; log 9). -/
opaque Config.cfg : Cfg

/-- The defaults of R7, for simulation and for the spec's printed vectors only; the machine does not use them. -/
def Cfg.default : Cfg where
  crcInit := 0x00
  opcWBit := 0x81
  opcWByte := 0x88
  opcW4 := 0x84
  opcR2 := 0x82
  opcRByte := 0x88
  opcR4 := 0x84
  edReset := ⟨0⟩
  edWBit := ⟨1⟩
  edWByte := ⟨1⟩
  edW4 := ⟨4⟩
  delayReset := .ms1
  delayWBit := .ms1
  delayR2 := .ms1
  r2Mask := 0x01

/-- What the block does on the transport channel `TP`, as the transport sees it (R22, R25, R26, R28, R69). -/
inductive TpEvent where
  /-- `writeControl` of a frame through a handle, with the timeout that goes with the request. -/
  | write (handle : Nat) (frame : Frame) (timeoutMs : Nat)
  /-- The block suspends for at least this many milliseconds. -/
  | delay (ms : Nat)
  /-- `readControl` through a handle, with its timeout. -/
  | read (handle : Nat) (timeoutMs : Nat)
  deriving DecidableEq, Repr

/-- The transport's answer to `writeControl` (R25): status (0 = no error), bytes written, and the transport's
description text of the status (R27). -/
structure WriteAnswer where
  st : Int
  n : Nat
  desc : String
  deriving DecidableEq, Repr, Inhabited

/-- The transport's answer to `readControl` (R26): status, bytes read, description text and the bytes. -/
structure ReadAnswer where
  st : Int
  n : Nat
  desc : String
  data : Frame
  deriving DecidableEq, Repr, Inhabited

/-- Draw: the answer to a write, given the number of transfers before it and all the channel has seen (R25, R34; log 6). -/
opaque Config.writeAnswer : Nat → List TpEvent → WriteAnswer

/-- Draw: the answer to a read (R26, R34; log 6). -/
opaque Config.readAnswer : Nat → List TpEvent → ReadAnswer

/-- Draw: what `IN` holds after a failed read (R26; log 12). -/
opaque Config.residualIn : Nat → List TpEvent → Frame

/-- Draw: the code a `TransportError` carries for a short transfer whose status was zero (R27; log 13). -/
opaque Config.shortCode : Nat → List TpEvent → Int

/-- Draw: the description a `TransportError` carries for such a transfer (R27; log 13). -/
opaque Config.shortText : Nat → List TpEvent → String

end Sys2Proof
end

