-- ==== Sys2Proof/Machine/Constants.lean ====
section
/-! DEFINITION. The constants the source fixes (spec/00_scope.md R5), collected in one place so that an audit can change
them (spec/93_implementation_defined.md U15). -/

namespace Sys2Proof.Machine

/-- `BUF_LEN`: the size of both buffers and of every transfer. -/
def bufLen : Nat := 8

/-- `MAGIC`, outbound position 0. -/
def magic : Byte := 0x18

/-- `OPC_RESET`, the one opcode byte the source gives (R41). -/
def opcReset : Byte := 0x48

/-- `CRC_TAP`. -/
def crcTap : Byte := 0x18

/-- `CRC_SETBIT`. -/
def crcSetBit : Byte := 0x80

/-- `CRC_CLRMASK`. -/
def crcClrMask : Byte := 0x7F

/-- Each of the two fill bytes `FILL_R2` of `read2BitPair`. -/
def fillR2 : Byte := 0x01

/-- `FILL_RD`, the fill byte of `readByte` and `read4Bytes`. -/
def fillRd : Byte := 0xFF

/-- `T_TIMEOUT` in milliseconds, the bound on each transfer (R28). -/
def transferTimeoutMs : Nat := 5000

/-- `FOLD_ORDER`: ascending, by R56 and conflict C3 (log 10). -/
def foldOrder : FoldOrder := .ascending

/-- The milliseconds of a delay: `DELAY_SHORT` and `DELAY_LONG` (R5). -/
def delayMillis : DelayMs → Nat
  | .ms1 => 1
  | .ms2 => 2

/-- The echo depth as a number of positions, 2..8 (R64). -/
def depthOf (d : EchoDepth) : Nat := 2 + d.beyond.val

/-- `ED_READ`: the header only (R7, R72). -/
def edRead : EchoDepth := ⟨0⟩

end Sys2Proof.Machine
end

