-- ==== Sys2Proof/Machine/Frame.lean ====
section
/-! DEFINITION. Reading and writing the positions of a buffer (spec/10_state.md R11, R12; 30_encoding.md R39). -/

namespace Sys2Proof.Machine

/-- All eight bytes 0x00 (R65). -/
def zeroFrame : Frame := ⟨0x00, 0x00, 0x00, 0x00, 0x00, 0x00, 0x00, 0x00⟩

/-- The byte at position `k` (R8 `OUT[k]`, `IN[k]`). -/
def getPos (f : Frame) (k : Fin 8) : Byte :=
  match k with
  | 0 => f.b0
  | 1 => f.b1
  | 2 => f.b2
  | 3 => f.b3
  | 4 => f.b4
  | 5 => f.b5
  | 6 => f.b6
  | 7 => f.b7

/-- The frame with position `k` set to `v`; there is no position above 7. -/
def setPos (f : Frame) (k : Nat) (v : Byte) : Frame :=
  match k with
  | 0 => { f with b0 := v }
  | 1 => { f with b1 := v }
  | 2 => { f with b2 := v }
  | 3 => { f with b3 := v }
  | 4 => { f with b4 := v }
  | 5 => { f with b5 := v }
  | 6 => { f with b6 := v }
  | 7 => { f with b7 := v }
  | _ => f

/-- The bytes of a list written to successive positions from `k` on (R66). -/
def putBytes (f : Frame) (k : Nat) : List Byte → Frame
  | [] => f
  | v :: vs => putBytes (setPos f k v) (k + 1) vs

/-- The frame as one 64-bit number: position k in bits 8k+7 down to 8k (R39). -/
def frameNumber (f : Frame) : BitVec 64 :=
  f.b7 ++ f.b6 ++ f.b5 ++ f.b4 ++ f.b3 ++ f.b2 ++ f.b1 ++ f.b0

end Sys2Proof.Machine
end

