-- ==== Sys2Proof/Machine/Flags.lean ====
section
/-! DEFINITION. The block has no condition codes (spec/10_state.md R16); what decides the `OUTCOME` of an operation are
the three tests of this file (spec/60_exceptions.md R108, R109). -/

namespace Sys2Proof.Machine

/-- A transfer fails when its status is not zero or its byte count is not 8 (R27). -/
abbrev TransferFailed (st : Int) (n : Nat) : Prop := st ≠ 0 ∨ n ≠ bufLen

/-- The reply mirrors the command at every position below the echo depth (R72). -/
abbrev EchoMatches (d : EchoDepth) (sent reply : Frame) : Prop :=
  ∀ k : Fin 8, k.val < depthOf d → getPos reply k = getPos sent k

/-- `verify` passes exactly on a zero accumulator (R57). -/
abbrev ChecksumOk (crc : Byte) : Prop := crc = 0x00

end Sys2Proof.Machine
end

