-- ==== Sys2Proof/Machine/State.lean ====
section
/-! DEFINITION. The state of the block (spec/10_state.md; reset values spec/70_reset_and_hazards.md R118), the outcomes of
an operation (spec/60_exceptions.md R102 to R107), and the reasons a step can stop. -/

namespace Sys2Proof.Machine

/-- The sequencing phase `PH` (R15). -/
inductive Phase where
  | idle
  | cleared
  | populated
  | written
  | waited
  | read
  | verified
  deriving DecidableEq, Repr

/-- The errors an operation of the block can end with (R102, R107). The width and the values of the transport's code are
not given, so it is an integer (R103; log 13). -/
inductive OpError where
  /-- A transfer failed (R103). -/
  | transportError (code : Int) (description : String)
  /-- The reply does not mirror the command (R104). -/
  | echoMismatch
  /-- `verify` found a nonzero accumulator (R105). -/
  | checksumMismatch
  deriving DecidableEq, Repr

/-- A result value (R37, column `result`). -/
inductive Value where
  /-- The new accumulator, from `fold`. -/
  | crc (v : Byte)
  /-- `(bit0, bit1)`, from `read2BitPair`: two reply bytes under `R2_MASK`, each 0 or 1 under the mask 0x01 (R47). -/
  | pair (bit0 bit1 : Byte)
  /-- The byte of `readByte`. -/
  | byte (v : Byte)
  /-- The word of `read4Bytes`. -/
  | word (v : Word)
  deriving DecidableEq, Repr

/-- `OUTCOME` together with the result: a result exists only inside `ok` (R16, R37, R84). -/
inductive OpOutcome where
  | ok (result : Option Value)
  | error (e : OpError)
  deriving DecidableEq, Repr

/-- The session record beside the two buffers (R13): the transport handle and `SID`, which no rule reads. -/
structure Session where
  handle : Nat
  sid : Nat
  deriving DecidableEq, Repr

/-- Why the machine stops: only where the rules give no meaning (R113). -/
inductive Fault where
  /-- `fold` or `verify` before any `crcSet` of the session. Raised by the meanings of `fold` and `verify`, because the spec
  orders this fault: spec/10_state.md R10, spec/60_exceptions.md R113, spec/70_reset_and_hazards.md R118, decision D2, point U9
  (treatment *fault*), vectors V20 and P7. Safe: the rules give such an operation no meaning. -/
  | crcUnwritten
  /-- An operation is issued while another is running (`PH` is not `IDLE`). Raised by `step` (R113, R125; log 15). Safe: the
  source defines no behaviour, and no run from reset comes here. -/
  | sessionBusy
  deriving DecidableEq, Repr

/-- Why the machine refuses an operation. -/
inductive Refusal where
  /-- An operation without a meaning in this model, rejected in its arm of `exec`. Safe. No arm uses it. -/
  | notModelled (mnemonic : String)
  /-- A word whose selector is reserved. Raised by `step` (R49; log 14). Safe: the block gives it no meaning. -/
  | reservedSelector (sel : Selector)
  deriving DecidableEq, Repr

/-- The state of the block, with the inputs it takes from the host and the transport. -/
structure State where
  /-- `CRC`, the accumulator (R10). -/
  crc : Byte
  /-- `CRC` has been written since session start (R10, R54, R57). -/
  crcWritten : Bool
  /-- `OUT[0..7]`, the outbound command buffer (R11). -/
  out : Frame
  /-- `IN[0..7]`, the inbound command buffer (R12). -/
  inb : Frame
  /-- `PH` (R15). -/
  ph : Phase
  /-- `OUTCOME` of the last operation; `none` before the first operation ends (R16, R118). -/
  outcome : Option OpOutcome
  /-- The session record (R13). -/
  session : Session
  /-- The model's own: the operations the host issues, next first (R37; log 5). -/
  hostOps : List HostWord
  /-- The model's own: the transport's coming answers to writes, next first; drawn when empty (R34; log 6). -/
  writeAnswers : List WriteAnswer
  /-- The model's own: the transport's coming answers to reads, next first; drawn when empty (R34; log 6). -/
  readAnswers : List ReadAnswer
  /-- The model's own: how many transfers have been answered, the index of the draws (log 6). -/
  draws : Nat
  /-- The model's own: what the block has done on the channel, oldest first (log 7). -/
  tpLog : List TpEvent
  deriving DecidableEq, Repr

/-- A session just opened with the handle and identifier the opener supplies (R117, R118). -/
def State.opened (handle sid : Nat) : State where
  crc := 0x00
  crcWritten := false
  out := ⟨0, 0, 0, 0, 0, 0, 0, 0⟩
  inb := ⟨0, 0, 0, 0, 0, 0, 0, 0⟩
  ph := .idle
  outcome := none
  session := { handle := handle, sid := sid }
  hostOps := []
  writeAnswers := []
  readAnswers := []
  draws := 0
  tpLog := []

/-- Session start (R117, R118); the values the spec leaves open are named in logs 2 to 7. -/
def State.reset : State := State.opened 0 0

end Sys2Proof.Machine
end

