-- ==== Sys2Proof/Machine/Ops.lean ====
section
/-! DEFINITION. The named operations over the registers and the transport channel (spec/10_state.md, 20_memory.md), and
the end of an operation: `complete`, and `raise`, which is taking an exception (spec/60_exceptions.md R110). There is no
return from an exception (R112). -/

namespace Sys2Proof.Machine

/-- Write the accumulator (R10, R53, R54). -/
def State.setCrc (s : State) (v : Byte) : State := { s with crc := v, crcWritten := true }

/-- Move `PH` (R15). -/
def State.setPhase (s : State) (p : Phase) : State := { s with ph := p }

/-- Set all sixteen buffer bytes to 0x00 (R65). -/
def State.clearBuffers (s : State) : State := { s with out := zeroFrame, inb := zeroFrame }

/-- Write the header and the payload into `OUT`; positions not named keep their byte (R40, R66). -/
def State.fillOut (s : State) (opc : Byte) (payload : List Byte) : State :=
  { s with out := putBytes s.out 0 (magic :: opc :: payload) }

/-- Replace `IN` by the bytes of a reply (R70). -/
def State.loadIn (s : State) (f : Frame) : State := { s with inb := f }

/-- Record what the block does on the channel (log 7). -/
def State.logTp (s : State) (e : TpEvent) : State := { s with tpLog := s.tpLog ++ [e] }

/-- The transport's answer to the write just recorded: the next listed one, or a draw (R25, R34). -/
def State.writeReply (s : State) : WriteAnswer :=
  match s.writeAnswers with
  | a :: _ => a
  | [] => Config.writeAnswer s.draws s.tpLog

/-- The transport's answer to the read just recorded: the next listed one, or a draw (R26, R34). -/
def State.readReply (s : State) : ReadAnswer :=
  match s.readAnswers with
  | a :: _ => a
  | [] => Config.readAnswer s.draws s.tpLog

/-- A write has been answered. -/
def State.tookWrite (s : State) : State :=
  { s with writeAnswers := s.writeAnswers.tail, draws := s.draws + 1 }

/-- A read has been answered. -/
def State.tookRead (s : State) : State :=
  { s with readAnswers := s.readAnswers.tail, draws := s.draws + 1 }

/-- `MemWrite(TP, 8, OUT)`: hand `OUT` to the transport and take its answer. No register of the block changes (R25). -/
def memWrite (s : State) : WriteAnswer × State :=
  let sent := s.logTp (.write s.session.handle s.out transferTimeoutMs)
  (sent.writeReply, sent.tookWrite)

/-- `MemRead(TP, 8)`: take the transport's answer. `IN` is written by what follows (R26). -/
def memRead (s : State) : ReadAnswer × State :=
  let asked := s.logTp (.read s.session.handle transferTimeoutMs)
  (asked.readReply, asked.tookRead)

/-- `Delay(ms)`: the block does nothing for at least that long; no state of the block changes (R69). -/
def State.pause (s : State) (d : DelayMs) : State := s.logTp (.delay (delayMillis d))

/-- What `IN` holds after a failed read: any bytes (R26; log 12). -/
def State.scrambleIn (s : State) : State := s.loadIn (Config.residualIn s.draws s.tpLog)

/-- The error of a failed transfer: the transport's own code and text when the code is not zero; for a short transfer
with a zero code the rules give neither, and both are free values (R27; log 13). -/
def transferError (st : Int) (desc : String) (s : State) : OpError :=
  if st ≠ 0 then .transportError st desc
  else .transportError (Config.shortCode s.draws s.tpLog) (Config.shortText s.draws s.tpLog)

/-- `raise`: the running operation ends with an error and without a result; `PH` returns to `IDLE`; nothing is saved and
nothing else changes (R110). -/
def State.raise (s : State) (e : OpError) : State :=
  { s with ph := .idle, outcome := some (.error e) }

/-- `return`: the operation ends with `Ok` and, for some operations, a result (R8, R16, R84). -/
def State.complete (s : State) (result : Option Value) : State :=
  { s with outcome := some (.ok result) }

end Sys2Proof.Machine
end

