-- ==== Sys2Proof/Machine/Crc.lean ====
section
/-! DEFINITION. Unit CRC (spec/40_crc.md): the step function and the meanings of `crcSet`, `fold` and `verify`. -/

namespace Sys2Proof.Machine

/-- One bit position of the fold: `t` is the accumulator's low bit exclusive-or bit `i` of the byte (R55). -/
def foldBit (acc : Byte) (t : Bool) : Byte :=
  if t then (((acc ^^^ crcTap) >>> 1) ||| crcSetBit) &&& 0xFF else (acc >>> 1) &&& crcClrMask

/-- The bit positions in the order the fold takes them (R56). -/
def FoldOrder.positions : FoldOrder → List Nat
  | .ascending => [0, 1, 2, 3, 4, 5, 6, 7]
  | .descending => [7, 6, 5, 4, 3, 2, 1, 0]

/-- The fold of a byte in a given order of its bits; `acc` is the running value (R55). -/
def foldStepIn (order : FoldOrder) (acc byte : Byte) : Byte :=
  (FoldOrder.positions order).foldl (fun a i => foldBit a (a.getLsbD 0 ^^ byte.getLsbD i)) acc

/-- `foldstep8(acc, byte)` (R55, R56). -/
def foldStep8 (acc byte : Byte) : Byte := foldStepIn foldOrder acc byte

/-- The accumulator after folding a list of bytes, first byte first (R62). -/
def foldBytes (acc : Byte) (bytes : List Byte) : Byte := bytes.foldl foldStep8 acc

/-- `crcSet(a)` (R53). -/
def execCrcSet (a : Byte) (s : State) : Host.Outcome State Fault Refusal :=
  .next ((s.setCrc a).complete none)

/-- `fold(b)` (R54); before any `crcSet` of the session it is the model fault the spec orders (R10, R113, R118, D2, U9, P7). -/
def execFold (b : Byte) (s : State) : Host.Outcome State Fault Refusal :=
  if s.crcWritten then
    .next ((s.setCrc (foldStep8 s.crc b)).complete (some (.crc (foldStep8 s.crc b))))
  else .fault .crcUnwritten

/-- `verify()` (R57); before any `crcSet` of the session it is the model fault the spec orders (R10, R113, R118, D2, U9, P7). -/
def execVerify (s : State) : Host.Outcome State Fault Refusal :=
  if s.crcWritten then
    .next (if ChecksumOk s.crc then s.complete none else s.raise .checksumMismatch)
  else .fault .crcUnwritten

end Sys2Proof.Machine
end

