-- ==== Sys2Proof/Machine/Operands.lean ====
section
/-! DEFINITION. Operand assembly and result extraction (spec/20_memory.md R29; 30_encoding.md R42 to R44, R47), and the
exchange parameters of the seven primitives (spec/42_bus_primitives.md R75). -/

namespace Sys2Proof.Machine

/-- The one-bit operand as a byte, 0x00 or 0x01 (R42, R43). -/
def bitPayload (bit : BitVec 1) : Byte := bit.setWidth 8

/-- The four bytes of a word, least significant first (R29, R43). -/
def wordPayload (w : Word) : List Byte :=
  [w.extractLsb' 0 8, w.extractLsb' 8 8, w.extractLsb' 16 8, w.extractLsb' 24 8]

/-- One bit of the pair: the reply byte under `R2_MASK` (R47, R80). -/
def maskedBit (mask b : Byte) : Byte := b &&& mask

/-- The result of `read2BitPair`: positions 2 and 3 under `R2_MASK` (R47, R80; log 11). -/
def pairResult (mask : Byte) (reply : Frame) : Option Value :=
  some (.pair (maskedBit mask (getPos reply 2)) (maskedBit mask (getPos reply 3)))

/-- The result of `readByte`: position 2 (R47, R81). -/
def byteResult (reply : Frame) : Option Value := some (.byte (getPos reply 2))

/-- Four bytes joined, the first least significant (R29, R47, R82). -/
def joinBytes (x0 x1 x2 x3 : Byte) : Word :=
  x0.setWidth 32 ||| x1.setWidth 32 <<< 8 ||| x2.setWidth 32 <<< 16 ||| x3.setWidth 32 <<< 24

/-- The result of `read4Bytes`: positions 2 to 5 (R47, R82). -/
def wordResult (reply : Frame) : Option Value :=
  some (.word (joinBytes (getPos reply 2) (getPos reply 3) (getPos reply 4) (getPos reply 5)))

/-- A write-type primitive has no result (R75). -/
def noResult (_ : Frame) : Option Value := none

/-- `pair = bit0 | (bit1 << 1)` (R47, R80); a value 0..3 under the mask 0x01. -/
def pairNumber (bit0 bit1 : Byte) : Nat := bit0.toNat ||| bit1.toNat <<< 1

/-- The inputs of one exchange (R64). -/
structure Exchange where
  opc : Byte
  payload : List Byte
  delay : DelayMs
  depth : EchoDepth
  deriving DecidableEq, Repr

/-- `reset()` (R75, R76). -/
def resetExchange (c : Cfg) : Exchange :=
  { opc := opcReset, payload := [], delay := c.delayReset, depth := c.edReset }

/-- `writeBit(bit)` (R75, R77). -/
def writeBitExchange (c : Cfg) (bit : BitVec 1) : Exchange :=
  { opc := c.opcWBit, payload := [bitPayload bit], delay := c.delayWBit, depth := c.edWBit }

/-- `writeByte(b)` (R75, R78). -/
def writeByteExchange (c : Cfg) (b : Byte) : Exchange :=
  { opc := c.opcWByte, payload := [b], delay := .ms1, depth := c.edWByte }

/-- `write4Bytes(word)` (R75, R79). -/
def write4BytesExchange (c : Cfg) (word : Word) : Exchange :=
  { opc := c.opcW4, payload := wordPayload word, delay := .ms2, depth := c.edW4 }

/-- `read2BitPair()` (R75, R80). -/
def read2BitPairExchange (c : Cfg) : Exchange :=
  { opc := c.opcR2, payload := [fillR2, fillR2], delay := c.delayR2, depth := edRead }

/-- `readByte()` (R75, R81). -/
def readByteExchange (c : Cfg) : Exchange :=
  { opc := c.opcRByte, payload := [fillRd], delay := .ms1, depth := edRead }

/-- `read4Bytes()` (R75, R82). -/
def read4BytesExchange (c : Cfg) : Exchange :=
  { opc := c.opcR4, payload := [fillRd, fillRd, fillRd, fillRd], delay := .ms2, depth := edRead }

end Sys2Proof.Machine
end

