-- ==== Sys2Proof/Machine/Exchange.lean ====
section
/-! DEFINITION. The exchange of the Command Codec (spec/41_codec_exchange.md R64 to R74): one micro-sequence shared by the
seven primitives, here one atomic transition with the order and the three failure points of R64 kept (R15; log 1). -/

namespace Sys2Proof.Machine

/-- The command frame of an exchange: header, payload, and 0x00 everywhere else (R39, R42, R45). -/
def commandFrame (x : Exchange) : Frame := putBytes zeroFrame 0 (magic :: x.opc :: x.payload)

/-- How an exchange ends: at a point where it raises, or verified. -/
inductive ExchangeEnd where
  | raised (e : OpError) (s : State)
  | verified (s : State)
  deriving DecidableEq, Repr

/-- Steps 1 and 2: clear both buffers, then populate `OUT` (R65, R66). -/
def prepare (x : Exchange) (s : State) : State :=
  ((s.clearBuffers.setPhase .cleared).fillOut x.opc x.payload).setPhase .populated

/-- Step 6: compare the echo (R72). -/
def verifyEcho (d : EchoDepth) (s : State) : ExchangeEnd :=
  if EchoMatches d s.out s.inb then .verified (s.setPhase .verified) else .raised .echoMismatch s

/-- Step 5, from the transport's answer on: a failed read ends the exchange with `IN` unspecified (R70, R71). -/
def afterRead (x : Exchange) (a : ReadAnswer) (s : State) : ExchangeEnd :=
  if TransferFailed a.st a.n then .raised (transferError a.st a.desc s) s.scrambleIn
  else verifyEcho x.depth ((s.loadIn a.data).setPhase .read)

/-- Step 3, from the transport's answer on: a failed write ends the exchange with no delay and no read (R68); otherwise
step 4, the delay (R69), and the read. -/
def afterWrite (x : Exchange) (a : WriteAnswer) (s : State) : ExchangeEnd :=
  if TransferFailed a.st a.n then .raised (transferError a.st a.desc s) s
  else
    let r := memRead (((s.setPhase .written).pause x.delay).setPhase .waited)
    afterRead x r.1 r.2

/-- `exchange(opc, payload, delay_ms, depth)` (R64). -/
def exchange (x : Exchange) (s : State) : ExchangeEnd :=
  let w := memWrite (prepare x s)
  afterWrite x w.1 w.2

/-- The end of a primitive: an error passes to the host unchanged; after `Ok` the result is taken from `IN` (R75, R84). -/
def finish (extract : Frame → Option Value) : ExchangeEnd → State
  | .raised e s => s.raise e
  | .verified s => (s.setPhase .idle).complete (extract s.inb)

/-- One primitive: exactly one exchange, then result extraction (R75). -/
def runPrimitive (x : Exchange) (extract : Frame → Option Value) (s : State) : State :=
  finish extract (exchange x s)

end Sys2Proof.Machine
end

