-- ==== Sys2Proof/Machine/Primitives.lean ====
section
/-! DEFINITION. The seven 1-Wire bus primitives (spec/42_bus_primitives.md R75 to R82). Each is one exchange; each of its
outcomes is a next state, since the host can branch on it (spec/60_exceptions.md R113). -/

namespace Sys2Proof.Machine

/-- `reset()` (R76): resets the 1-Wire bus, not the block (R122). -/
def execReset (s : State) : Host.Outcome State Fault Refusal :=
  .next (runPrimitive (resetExchange Config.cfg) noResult s)

/-- `writeBit(bit)` (R77). -/
def execWriteBit (bit : BitVec 1) (s : State) : Host.Outcome State Fault Refusal :=
  .next (runPrimitive (writeBitExchange Config.cfg bit) noResult s)

/-- `writeByte(b)` (R78). -/
def execWriteByte (b : Byte) (s : State) : Host.Outcome State Fault Refusal :=
  .next (runPrimitive (writeByteExchange Config.cfg b) noResult s)

/-- `write4Bytes(word)` (R79). -/
def execWrite4Bytes (word : Word) (s : State) : Host.Outcome State Fault Refusal :=
  .next (runPrimitive (write4BytesExchange Config.cfg word) noResult s)

/-- `read2BitPair()` (R80). -/
def execRead2BitPair (s : State) : Host.Outcome State Fault Refusal :=
  .next (runPrimitive (read2BitPairExchange Config.cfg) (pairResult Config.cfg.r2Mask) s)

/-- `readByte()` (R81). -/
def execReadByte (s : State) : Host.Outcome State Fault Refusal :=
  .next (runPrimitive (readByteExchange Config.cfg) byteResult s)

/-- `read4Bytes()` (R82). -/
def execRead4Bytes (s : State) : Host.Outcome State Fault Refusal :=
  .next (runPrimitive (read4BytesExchange Config.cfg) wordResult s)

end Sys2Proof.Machine
end

