-- ==== Sys2Proof/Syntax.lean ====
section
/-! DEFINITION. The ten host operations (spec/30_encoding.md R37, spec/opcode_table.json), one constructor per row.
Operand widths are part of the operation (R38) and are carried by the types, so every term is a legal operation. -/

namespace Sys2Proof

/-- A host operation with its operand (R37). -/
inductive Instr where
  /-- `crcSet(a)`: load the accumulator (R53). -/
  | crcSet (a : Byte)
  /-- `fold(b)`: fold one byte into the accumulator (R54). -/
  | fold (b : Byte)
  /-- `verify()`: check that the accumulator is zero (R57). -/
  | verify
  /-- `reset()`: 1-Wire bus reset (R76). -/
  | reset
  /-- `writeBit(bit)` (R77). -/
  | writeBit (bit : BitVec 1)
  /-- `writeByte(b)` (R78). -/
  | writeByte (b : Byte)
  /-- `write4Bytes(word)` (R79). -/
  | write4Bytes (word : Word)
  /-- `read2BitPair()` (R80). -/
  | read2BitPair
  /-- `readByte()` (R81). -/
  | readByte
  /-- `read4Bytes()` (R82). -/
  | read4Bytes
  deriving DecidableEq, Repr

end Sys2Proof
end

