-- ==== Sys2Proof/Machine/Dispatch.lean ====
section
/-! DEFINITION. One arm per host operation (spec/30_encoding.md R37). -/

namespace Sys2Proof.Machine

def exec (i : Instr) (s : State) : Host.Outcome State Fault Refusal :=
  match i with
  -- Unit CRC
  | .crcSet a => Sys2Proof.Machine.execCrcSet a s
  | .fold b => Sys2Proof.Machine.execFold b s
  | .verify => Sys2Proof.Machine.execVerify s
  -- OWPE
  | .reset => Sys2Proof.Machine.execReset s
  | .writeBit bit => Sys2Proof.Machine.execWriteBit bit s
  | .writeByte b => Sys2Proof.Machine.execWriteByte b s
  | .write4Bytes word => Sys2Proof.Machine.execWrite4Bytes word s
  | .read2BitPair => Sys2Proof.Machine.execRead2BitPair s
  | .readByte => Sys2Proof.Machine.execReadByte s
  | .read4Bytes => Sys2Proof.Machine.execRead4Bytes s

end Sys2Proof.Machine
end

