-- ==== Sys2Proof/WellFormed.lean ====
section
/-! DEFINITION. What is well formed (spec/30_encoding.md R37, R38, R49; 41_codec_exchange.md R64). An `Instr` is well
formed by its types; what can be ill formed is a host word before decoding and the payload handed to an exchange. -/

namespace Sys2Proof

/-- The selector of the word is one of the ten assigned ones, not 0x3 to 0x7 and not 0xF (R37, R49). -/
def HostWord.selectorAssigned (w : HostWord) : Bool :=
  [0x0#4, 0x1#4, 0x2#4, 0x8#4, 0x9#4, 0xA#4, 0xB#4, 0xC#4, 0xD#4, 0xE#4].contains (w.extractLsb' 32 4)

/-- How many low bits of `opd` the operation behind a selector uses (R37, column `opd`). -/
def operandWidth (sel : Selector) : Nat :=
  if sel = 0x0#4 ∨ sel = 0x1#4 ∨ sel = 0xA#4 then 8
  else if sel = 0x9#4 then 1
  else if sel = 0xB#4 then 32
  else 0

/-- Every bit of `opd` above the operand's width is zero. The decoder does not ask for it (R38); the encoder makes it so. -/
def HostWord.operandClean (w : HostWord) : Bool :=
  decide ((w.extractLsb' 0 32).toNat < 2 ^ operandWidth (w.extractLsb' 32 4))

/-- A canonical word: an assigned selector and no stray operand bit. -/
def HostWord.canonical (w : HostWord) : Bool :=
  HostWord.selectorAssigned w && HostWord.operandClean w

/-- The payload of an exchange is a list of 0 to 4 bytes (R64). -/
def payloadFits (p : List Byte) : Bool := decide (p.length ≤ 4)

end Sys2Proof
end

