-- ==== Sys2Proof/Decode.lean ====
section
/-! DEFINITION. Decoding and encoding of host operations, format `H` (spec/30_encoding.md R37, R38, R49, R50). The
selector values are the spec's own labels (log 14). -/

namespace Sys2Proof

/-- Why a word is no operation. -/
inductive DecodeError where
  /-- Selector 0x3 to 0x7 or 0xF (R49). -/
  | reservedSelector (sel : Selector)
  /-- A number of more than 36 bits is no word of format `H` (R37). -/
  | tooWide
  deriving DecidableEq, Repr

/-- `sel`, bits 35..32 (R37). -/
def HostWord.sel (w : HostWord) : Selector := w.extractLsb' 32 4

/-- `opd`, bits 31..0 (R37). -/
def HostWord.opd (w : HostWord) : BitVec 32 := w.extractLsb' 0 32

/-- The operation of a host word. Operand bits above the operand's width are ignored (R38). -/
def decode (w : HostWord) : Except DecodeError Instr :=
  if HostWord.sel w = 0x0#4 then .ok (.crcSet ((HostWord.opd w).extractLsb' 0 8))
  else if HostWord.sel w = 0x1#4 then .ok (.fold ((HostWord.opd w).extractLsb' 0 8))
  else if HostWord.sel w = 0x2#4 then .ok .verify
  else if HostWord.sel w = 0x8#4 then .ok .reset
  else if HostWord.sel w = 0x9#4 then .ok (.writeBit ((HostWord.opd w).extractLsb' 0 1))
  else if HostWord.sel w = 0xA#4 then .ok (.writeByte ((HostWord.opd w).extractLsb' 0 8))
  else if HostWord.sel w = 0xB#4 then .ok (.write4Bytes (HostWord.opd w))
  else if HostWord.sel w = 0xC#4 then .ok .read2BitPair
  else if HostWord.sel w = 0xD#4 then .ok .readByte
  else if HostWord.sel w = 0xE#4 then .ok .read4Bytes
  else .error (.reservedSelector (HostWord.sel w))

/-- Decoding of any number: what does not fit the 36 bits of format `H` is refused. -/
def decodeNat (n : Nat) : Except DecodeError Instr :=
  if n < 2 ^ 36 then decode (BitVec.ofNat 36 n) else .error .tooWide

/-- The instruction read from a word numbered as spec/opcode_table.json numbers it: the 36-bit number of format `H`
is one word, its bit 0 the least significant. Bits above `nbits` are zero. -/
def decodeTableWord (nbits w : Nat) : Option Instr :=
  match decodeNat (w % 2 ^ nbits) with
  | .ok i => some i
  | .error _ => none

/-- A word of format `H` from its two fields. -/
def hostWord (sel : Selector) (opd : BitVec 32) : HostWord := sel ++ opd

/-- The canonical word of an operation: unused operand bits are zero (R37). -/
def encode : Instr → HostWord
  | .crcSet a => hostWord 0x0 (a.setWidth 32)
  | .fold b => hostWord 0x1 (b.setWidth 32)
  | .verify => hostWord 0x2 0
  | .reset => hostWord 0x8 0
  | .writeBit bit => hostWord 0x9 (bit.setWidth 32)
  | .writeByte b => hostWord 0xA (b.setWidth 32)
  | .write4Bytes word => hostWord 0xB word
  | .read2BitPair => hostWord 0xC 0
  | .readByte => hostWord 0xD 0
  | .read4Bytes => hostWord 0xE 0

/-- The bits of the word that say something about the operation: the selector and the operand (R37, R38). -/
def encodingMask : Instr → HostWord
  | .crcSet _ => 0xF000000FF
  | .fold _ => 0xF000000FF
  | .verify => 0xF00000000
  | .reset => 0xF00000000
  | .writeBit _ => 0xF00000001
  | .writeByte _ => 0xF000000FF
  | .write4Bytes _ => 0xFFFFFFFFF
  | .read2BitPair => 0xF00000000
  | .readByte => 0xF00000000
  | .read4Bytes => 0xF00000000

end Sys2Proof
end

