-- ==== Sys2Proof/Machine/Issue.lean ====
section
/-! DEFINITION. How the block accepts the host's next operation (spec/30_encoding.md R37, R49; 20_memory.md R32;
70_reset_and_hazards.md R125, R130). It fetches nothing: the host issues (spec/10_state.md R15; log 5). -/

namespace Sys2Proof.Machine

/-- What the block finds when it looks for an operation. -/
inductive Issued where
  /-- The host issues nothing: the block is idle between operations (R130). -/
  | nothing
  /-- An operation is issued while another is running (R125). -/
  | busy
  /-- The word is no operation (R49). -/
  | reserved (sel : Selector)
  /-- An operation, and the state in which the host has one operation less to issue. -/
  | run (i : Instr) (s : State)
  deriving DecidableEq, Repr

/-- Take the host's next operation. -/
def nextIssued (s : State) : Issued :=
  match s.hostOps with
  | [] => .nothing
  | w :: rest =>
    if s.ph = .idle then
      match decode w with
      | .ok i => .run i { s with hostOps := rest }
      | .error _ => .reserved (HostWord.sel w)
    else .busy

/-- The state in which the host issues this word next. -/
def State.issueNext (s : State) (w : HostWord) : State := { s with hostOps := w :: s.hostOps }

end Sys2Proof.Machine
end

