-- ==== Sys2Proof/Machine/Step.lean ====
section
/-! DEFINITION. One step: one host operation from issue to outcome (spec/00_scope.md R2; 20_memory.md R32). -/

namespace Sys2Proof.Machine

/-- Accept the host's next operation and run it to its outcome. With no operation issued the block stays as it is (R130). -/
def step (s : State) : Host.Outcome State Fault Refusal :=
  match nextIssued s with
  | .nothing => .next s
  | .busy => .fault .sessionBusy
  | .reserved sel => .refused (.reservedSelector sel)
  | .run i s' => exec i s'

/-- The state in which the host issues, next, the word whose table bits are `w` (log 5). A host word has 36 bits (R37), so
of a wider number this places the low 36 bits and a step runs those, while `decodeTableWord` refuses the number. The spec
says nothing of a wider number: DESIGN CHOICE, log 14. -/
def State.withFetchWord (s : State) (nbits w : Nat) : State :=
  s.issueNext (BitVec.ofNat 36 (w % 2 ^ nbits))

end Sys2Proof.Machine
end

