-- ==== Sys2Proof/Machine/HostPrograms.lean ====
section
/-! DEFINITION. The pseudo-operations (spec/30_encoding.md R52) and the two programs the source's host builds on the block
(spec/43_host_sequences.md R85 to R100). They are software outside the block (spec/00_scope.md R4): `step` uses none of
this file. A program is written over any way to issue one operation, `blockIssue` being the block itself, and over the
configuration, of which it reads `CRC_INIT` (R62; log 22). -/

namespace Sys2Proof.Machine

/-- `fold(a, b)`, the source's two-argument form, as a row of operations (R52). -/
def pseudoFold (a b : Byte) : List Instr := [.crcSet a, .fold b]

/-- `crc(b0, ..., bn)` as a row of operations (R52). -/
def pseudoCrc (c : Cfg) (bytes : List Byte) : List Instr := .crcSet c.crcInit :: bytes.map .fold

/-- A Rom (R21, R100): its low byte is the family code. -/
abbrev Rom := BitVec 64

/-- The errors of the host programs (R106, R107); the block never produces them. -/
inductive HostError where
  | enumerationFailed
  | ioFailure
  | invalidAddress
  deriving DecidableEq, Repr

/-- A way to issue one operation: `none` when the machine under it stops with a fault or a refusal. -/
abbrev Issuer (σ : Type) := Instr → σ → Option (OpOutcome × σ)

/-- What a program leaves: `none` when the machine stopped, otherwise its answer and the state. -/
abbrev Ran (α σ : Type) := Option (α × σ)

/-- The block as the thing programs run on. -/
def blockIssue : Issuer State := fun i s =>
  match exec i s with
  | .next t =>
    match t.outcome with
    | some o => some (o, t)
    | none => none
  | .fault _ => none
  | .refused _ => none

/-- Issue an operation; an error outcome fails the attempt (answer `none`), `Ok` goes on with the result (R88, R99). -/
def onOk {α σ : Type} (issue : Issuer σ) (i : Instr) (s : σ) (k : Option Value → σ → Ran (Option α) σ) :
    Ran (Option α) σ :=
  match issue i s with
  | none => none
  | some (.ok r, t) => k r t
  | some (.error _, t) => some (none, t)

/-- Issue `read2BitPair`; the attempt goes on with the two bits, and fails with any other answer (R84, R89). -/
def onPair {α σ : Type} (issue : Issuer σ) (s : σ) (k : Byte → Byte → σ → Ran (Option α) σ) :
    Ran (Option α) σ :=
  match issue .read2BitPair s with
  | none => none
  | some (.ok (some (.pair bit0 bit1)), t) => k bit0 bit1 t
  | some (_, t) => some (none, t)

/-- Issue `readByte`; the attempt goes on with the byte. -/
def onByte {α σ : Type} (issue : Issuer σ) (s : σ) (k : Byte → σ → Ran (Option α) σ) : Ran (Option α) σ :=
  match issue .readByte s with
  | none => none
  | some (.ok (some (.byte b)), t) => k b t
  | some (_, t) => some (none, t)

/-- Issue `read4Bytes`; the attempt goes on with the word. -/
def onWord {α σ : Type} (issue : Issuer σ) (s : σ) (k : Word → σ → Ran (Option α) σ) : Ran (Option α) σ :=
  match issue .read4Bytes s with
  | none => none
  | some (.ok (some (.word w)), t) => k w t
  | some (_, t) => some (none, t)

/-- `fold` the bytes of an item, first byte first (R62). -/
def foldAll {α σ : Type} (issue : Issuer σ) : List Byte → σ → (σ → Ran (Option α) σ) → Ran (Option α) σ
  | [], s, k => k s
  | b :: bs, s, k => onOk issue (.fold b) s fun _ t => foldAll issue bs t k

/-- The checking protocol (R62): `crcSet(CRC_INIT)`, one `fold` per byte, `verify()`. -/
def checkItem {α σ : Type} (issue : Issuer σ) (c : Cfg) (bytes : List Byte) (s : σ) (k : σ → Ran (Option α) σ) :
    Ran (Option α) σ :=
  onOk issue (.crcSet c.crcInit) s fun _ t => foldAll issue bytes t fun u => onOk issue .verify u fun _ v => k v

/-- At most `n` attempts; the first that answers ends the program (R88, R99). -/
def attempts {α σ : Type} : Nat → (σ → Ran (Option α) σ) → σ → Ran (Option α) σ
  | 0, _, s => some (none, s)
  | n + 1, attempt, s =>
    match attempt s with
    | none => none
    | some (some a, t) => some (some a, t)
    | some (none, t) => attempts n attempt t

/-- `N_ATTEMPTS` (R6). -/
def attemptBudget : Nat := 3

/-- The eight bytes of a Rom from the family code up to the CRC byte (R62, R91). -/
def romBytes (rom : Rom) : List Byte :=
  [rom.extractLsb' 0 8, rom.extractLsb' 8 8, rom.extractLsb' 16 8, rom.extractLsb' 24 8,
    rom.extractLsb' 32 8, rom.extractLsb' 40 8, rom.extractLsb' 48 8, rom.extractLsb' 56 8]

/-- One bit position of a Rom set (R89). -/
def setRomBit (rom : Rom) (i : Nat) : Rom := rom ||| (1#64 <<< i)

/-- The address built by one pass, and the collisions it recorded: position and address so far (R87, R90). -/
structure Pass where
  rom : Rom
  collisions : List (Nat × Rom)
  deriving DecidableEq, Repr

/-- The decision at position `i` (R87, R90): the direction and the pass with a new collision recorded, or `none` for
pattern 3 and, as the last branch of R87 reads, for any number above 3 (log 11). -/
def steer (romPrefix : Rom) (depth : Int) (p : Pass) (i : Nat) (bit0 bit1 : Byte) : Option (BitVec 1 × Pass) :=
  if pairNumber bit0 bit1 = 0 then
    if depth < (i : Int) then some (0, { p with collisions := p.collisions ++ [(i, p.rom)] })
    else some (BitVec.ofBool (romPrefix.getLsbD i), p)
  else if pairNumber bit0 bit1 = 1 then some (1, p)
  else if pairNumber bit0 bit1 = 2 then some (0, p)
  else none

/-- The bit walk over the given positions (R89): one `read2BitPair` and one `writeBit` each. -/
def walkBits {σ : Type} (issue : Issuer σ) (romPrefix : Rom) (depth : Int) :
    List Nat → Pass → σ → Ran (Option Pass) σ
  | [], p, s => some (some p, s)
  | i :: is, p, s =>
    onPair issue s fun bit0 bit1 t =>
      match steer romPrefix depth p i bit0 bit1 with
      | none => some (none, t)
      | some (d, q) =>
        onOk issue (.writeBit d) t fun _ u =>
          walkBits issue romPrefix depth is (if d = 1 then { q with rom := setRomBit q.rom i } else q) u

/-- `ROM_BITS` (R6). -/
def romBits : Nat := 64

/-- One attempt of a search pass (R88, R89, R91): `reset()`, `writeByte(0xF0)`, the walk, the zero test, the checksum. The
checksum begins with `CRC_INIT` as R62 says, where R87 and R91 print its default 0x00: DESIGN CHOICE, log 22. -/
def searchAttempt {σ : Type} (issue : Issuer σ) (c : Cfg) (romPrefix : Rom) (depth : Int) (s : σ) : Ran (Option Pass) σ :=
  onOk issue .reset s fun _ t =>
    onOk issue (.writeByte 0xF0) t fun _ u =>
      match walkBits issue romPrefix depth (List.range romBits) { rom := 0, collisions := [] } u with
      | none => none
      | some (none, v) => some (none, v)
      | some (some p, v) =>
        if p.rom = 0 then some (none, v)
        else checkItem issue c (romBytes p.rom) v fun w => some (some p, w)

/-- One invocation `search(romPrefix, lastCollisionDepth)` (R87, R92, R93). The answer `none` is `EnumerationFailed`; a
child's failure is dropped. `fuel` bounds the recursion, which is at most 64 deep (R92). -/
def search {σ : Type} (issue : Issuer σ) (c : Cfg) : Nat → Rom → Int → σ → Ran (Option (List Rom)) σ
  | 0, _, _, s => some (none, s)
  | fuel + 1, romPrefix, depth, s =>
    match attempts attemptBudget (searchAttempt issue c romPrefix depth) s with
    | none => none
    | some (none, t) => some (none, t)
    | some (some p, t) =>
      p.collisions.foldl
        (fun acc flagged =>
          match acc with
          | none => none
          | some (found, u) =>
            match search issue c fuel (setRomBit flagged.2 flagged.1) (flagged.1 : Int) u with
            | none => none
            | some (some more, v) => some (found.map (· ++ more), v)
            | some (none, v) => some (found, v))
        (some (some [p.rom], t))

/-- `searchAll()` (R86); `topDepth` is `SEARCH_TOP_DEPTH` (R6), -1 by default. The top invocation is the first of at most
65 nested ones. -/
def searchAll {σ : Type} (issue : Issuer σ) (c : Cfg) (topDepth : Int) (s : σ) : Ran (Except HostError (List Rom)) σ :=
  match search issue c (romBits + 1) 0 topDepth s with
  | none => none
  | some (none, t) => some (.error .enumerationFailed, t)
  | some (some roms, t) => some (.ok roms, t)

/-- The temperature of a raw value for a family code (R98), an exact rational; 1000 marks an unrecognized family.
`famDs1822` is the parameter `FAM_DS1822`. -/
def convertTemperature (famDs1822 family : Byte) (raw : BitVec 16) : Rat :=
  if family = 0x28 ∨ family = famDs1822 then (raw.toInt : Rat) / 16
  else if family = 0x10 then (raw.toInt : Rat) / 2
  else 1000

/-- The nine scratchpad bytes in arrival order (R97). -/
def scratchpadBytes (w1 w2 : Word) (b8 : Byte) : List Byte :=
  [w1.extractLsb' 0 8, w1.extractLsb' 8 8, w1.extractLsb' 16 8, w1.extractLsb' 24 8,
    w2.extractLsb' 0 8, w2.extractLsb' 8 8, w2.extractLsb' 16 8, w2.extractLsb' 24 8, b8]

/-- One attempt of `readTemperature` (R95 to R98). The checksum begins with `CRC_INIT` as R62 says, where R95 prints its
default 0x00: DESIGN CHOICE, log 22. -/
def temperatureAttempt {σ : Type} (issue : Issuer σ) (c : Cfg) (famDs1822 : Byte) (rom : Rom) (s : σ) : Ran (Option Rat) σ :=
  onOk issue .reset s fun _ s =>
  onOk issue (.writeByte 0xCC) s fun _ s =>
  onOk issue (.writeByte 0x44) s fun _ s =>
  onOk issue .reset s fun _ s =>
  onOk issue (.writeByte 0x55) s fun _ s =>
  onOk issue (.write4Bytes (rom.extractLsb' 0 32)) s fun _ s =>
  onOk issue (.write4Bytes (rom.extractLsb' 32 32)) s fun _ s =>
  onOk issue (.writeByte 0xBE) s fun _ s =>
  onWord issue s fun w1 s =>
  onWord issue s fun w2 s =>
  onByte issue s fun b8 s =>
  checkItem issue c (scratchpadBytes w1 w2 b8) s fun s =>
  some (some (convertTemperature famDs1822 (rom.extractLsb' 0 8) (w1.extractLsb' 0 16)), s)

/-- `readTemperature(rom)` (R95, R99). -/
def readTemperature {σ : Type} (issue : Issuer σ) (c : Cfg) (famDs1822 : Byte) (rom : Rom) (s : σ) :
    Ran (Except HostError Rat) σ :=
  match attempts attemptBudget (temperatureAttempt issue c famDs1822 rom) s with
  | none => none
  | some (none, t) => some (.error .ioFailure, t)
  | some (some temp, t) => some (.ok temp, t)

end Sys2Proof.Machine
end

