-- ==== Sys2Proof/Machine/AddressText.lean ====
section
/-! DEFINITION. The written forms: an operation as a function call (spec/30_encoding.md R51) and a Rom as hexadecimal text
(spec/43_host_sequences.md R101, in the form of spec/92_eei_decisions.md D29). Neither is part of the block. -/

namespace Sys2Proof.Machine

/-- The value of a hexadecimal digit, either case. -/
def hexValue (c : Char) : Option Nat :=
  if '0' ≤ c ∧ c ≤ '9' then some (c.toNat - 48)
  else if 'A' ≤ c ∧ c ≤ 'F' then some (c.toNat - 55)
  else if 'a' ≤ c ∧ c ≤ 'f' then some (c.toNat - 87)
  else none

/-- The value of a decimal digit. -/
def decValue (c : Char) : Option Nat := if '0' ≤ c ∧ c ≤ '9' then some (c.toNat - 48) else none

/-- The upper-case hexadecimal digit of a value below 16. -/
def hexDigit (n : Nat) : Char := if n < 10 then Char.ofNat (48 + n) else Char.ofNat (55 + n)

/-- Digits read most significant first, onto the value so far. -/
def readDigits (digit : Char → Option Nat) (base : Nat) : List Char → Nat → Option Nat
  | [], acc => some acc
  | c :: cs, acc =>
    match digit c with
    | some d => readDigits digit base cs (acc * base + d)
    | none => none

/-- The `n` low hexadecimal digits of a value, most significant first. -/
def hexDigits : Nat → Nat → List Char
  | 0, _ => []
  | n + 1, v => hexDigits n (v / 16) ++ [hexDigit (v % 16)]

/-- A Rom as text: 16 upper-case digits, most significant first (R101). -/
def romToText (rom : Rom) : List Char := hexDigits 16 rom.toNat

/-- A Rom from text: exactly 16 digits of either case, anything else is `InvalidAddress` (R101). -/
def romOfText (text : List Char) : Except HostError Rom :=
  if text.length = 16 then
    match readDigits hexValue 16 text 0 with
    | some v => .ok (BitVec.ofNat 64 v)
    | none => .error .invalidAddress
  else .error .invalidAddress

/-- A number as R51 writes it: `0x` and hexadecimal digits, or decimal digits. -/
def readNumber : List Char → Option Nat
  | [] => none
  | '0' :: 'x' :: [] => none
  | '0' :: 'x' :: ds => readDigits hexValue 16 ds 0
  | ds => readDigits decValue 10 ds 0

/-- What stands between the parentheses of an operation, and nothing after them. -/
def insideParens : List Char → Option (List Char)
  | '(' :: rest => if rest.getLast? = some ')' then some rest.dropLast else none
  | _ => none

/-- An operand that fits its width (R38). -/
def readOperand (width : Nat) (text : List Char) : Option (BitVec width) :=
  match readNumber text with
  | some n => if n < 2 ^ width then some (BitVec.ofNat width n) else none
  | none => none

/-- An operation's name and what follows it: the letters and digits up to the first other character. -/
def splitName (text : List Char) : List Char × List Char := text.span Char.isAlphanum

/-- An operation in the source's function-call form (R51). -/
def readOperation (text : List Char) : Option Instr :=
  match insideParens (splitName text).2 with
  | none => none
  | some arg =>
    let name := (splitName text).1
    if name = "crcSet".toList then (readOperand 8 arg).map .crcSet
    else if name = "fold".toList then (readOperand 8 arg).map .fold
    else if name = "writeBit".toList then (readOperand 1 arg).map .writeBit
    else if name = "writeByte".toList then (readOperand 8 arg).map .writeByte
    else if name = "write4Bytes".toList then (readOperand 32 arg).map .write4Bytes
    else if arg ≠ [] then none
    else if name = "verify".toList then some .verify
    else if name = "reset".toList then some .reset
    else if name = "read2BitPair".toList then some .read2BitPair
    else if name = "readByte".toList then some .readByte
    else if name = "read4Bytes".toList then some .read4Bytes
    else none

/-- A line of a program: an operation, with the name its result is bound to where it has one, `name <- op(...)` (R51). -/
def readLine (text : List Char) : Option (Option (List Char) × Instr) :=
  match splitName text with
  | (name, ' ' :: '<' :: '-' :: ' ' :: rest) =>
    if name = [] then none else (readOperation rest).map (some name, ·)
  | _ => (readOperation text).map (none, ·)

end Sys2Proof.Machine
end

