-- ==== Sys2Proof/Machine/Run.lean ====
section
/-! DEFINITION. The end of a run (spec/70_reset_and_hazards.md R130). The block has no halt; a run is finished when the host
has returned, `PH` is `IDLE` and no model fault has occurred (spec/92_eei_decisions.md D31). A fault or a refusal is no
part of the state: it is the outcome of the step that ends the run. -/

namespace Sys2Proof.Machine

/-- That many steps of the block, up to the first that stops. -/
def runSteps : Nat → State → Host.Outcome State Fault Refusal
  | 0, s => .next s
  | n + 1, s =>
    match step s with
    | .next t => runSteps n t
    | .fault r => .fault r
    | .refused r => .refused r

/-- A finished run of the block: the host has no further operation to issue, `PH` is `IDLE`, and nothing stopped (R130). -/
def FinishedRun : Host.Outcome State Fault Refusal → Prop
  | .next t => t.hostOps = [] ∧ t.ph = .idle
  | .fault _ => False
  | .refused _ => False

/-- A finished run of a host program on the block: it has returned its value or its terminal error, `PH` is `IDLE`, and the
block has not stopped under it (R130). -/
def ProgramFinished {α : Type} : Ran α State → Prop
  | some (_, t) => t.ph = .idle
  | none => False

end Sys2Proof.Machine
end

