-- ==== Sys2Proof/Safety.lean ====
section
/-! DEFINITION. The terms in which claims about the block are stated: what each primitive puts on the channel and looks
for in the reply, what the transport answers it, which channel logs the rules allow, and the invariant of a session. They
are written from the tables of the spec, beside the machine and not with its operations. -/

namespace Sys2Proof.Machine

/-- What a primitive does on the bus: its command frame, its delay and its echo depth (spec/30_encoding.md R39 to R45,
spec/42_bus_primitives.md R75). -/
structure BusUse where
  frame : Frame
  delay : DelayMs
  depth : EchoDepth
  deriving DecidableEq, Repr

/-- The table of R42 and R75, frame by frame; the operations of unit CRC use no bus. -/
def busUse : Instr → Option BusUse
  | .crcSet _ => none
  | .fold _ => none
  | .verify => none
  | .reset => some ⟨⟨0x18, 0x48, 0, 0, 0, 0, 0, 0⟩, Config.cfg.delayReset, Config.cfg.edReset⟩
  | .writeBit bit =>
    some ⟨⟨0x18, Config.cfg.opcWBit, if bit = 1 then 0x01 else 0x00, 0, 0, 0, 0, 0⟩, Config.cfg.delayWBit, Config.cfg.edWBit⟩
  | .writeByte b => some ⟨⟨0x18, Config.cfg.opcWByte, b, 0, 0, 0, 0, 0⟩, .ms1, Config.cfg.edWByte⟩
  | .write4Bytes w =>
    some ⟨⟨0x18, Config.cfg.opcW4, w.extractLsb' 0 8, w.extractLsb' 8 8, w.extractLsb' 16 8, w.extractLsb' 24 8, 0, 0⟩,
      .ms2, Config.cfg.edW4⟩
  | .read2BitPair => some ⟨⟨0x18, Config.cfg.opcR2, 0x01, 0x01, 0, 0, 0, 0⟩, Config.cfg.delayR2, ⟨0⟩⟩
  | .readByte => some ⟨⟨0x18, Config.cfg.opcRByte, 0xFF, 0, 0, 0, 0, 0⟩, .ms1, ⟨0⟩⟩
  | .read4Bytes => some ⟨⟨0x18, Config.cfg.opcR4, 0xFF, 0xFF, 0xFF, 0xFF, 0, 0⟩, .ms2, ⟨0⟩⟩

/-- The primitive is one of the three that deliver a result (spec/42_bus_primitives.md R75). -/
def readType : Instr → Bool
  | .read2BitPair => true
  | .readByte => true
  | .read4Bytes => true
  | .crcSet _ => false
  | .fold _ => false
  | .verify => false
  | .reset => false
  | .writeBit _ => false
  | .writeByte _ => false
  | .write4Bytes _ => false

/-- What the channel sees of a write of `f` in state `s` (spec/20_memory.md R25, R28). -/
def writeEvent (s : State) (f : Frame) : TpEvent := .write s.session.handle f 5000

/-- What the channel sees of a whole exchange of `f` with delay `d` (spec/41_codec_exchange.md R64). -/
def exchangeEvents (s : State) (f : Frame) (d : DelayMs) : List TpEvent :=
  [writeEvent s f, .delay (match d with | .ms1 => 1 | .ms2 => 2), .read s.session.handle 5000]

/-- What the transport answers in state `s` to a write of `f`, whatever it is (spec/20_memory.md R34). -/
def writeAnswerTo (s : State) (f : Frame) : WriteAnswer :=
  match s.writeAnswers with
  | a :: _ => a
  | [] => Config.writeAnswer s.draws (s.tpLog ++ [writeEvent s f])

/-- What the transport answers, in an exchange begun in state `s` with frame `f`, to the read (spec/20_memory.md R34). -/
def readAnswerTo (s : State) (f : Frame) (d : DelayMs) : ReadAnswer :=
  match s.readAnswers with
  | a :: _ => a
  | [] => Config.readAnswer (s.draws + 1) (s.tpLog ++ exchangeEvents s f d)

/-- Both transfers of the exchange succeed: status zero and eight bytes (spec/20_memory.md R25 to R27). -/
def BothSucceed (s : State) (f : Frame) (d : DelayMs) : Prop :=
  (writeAnswerTo s f).st = 0 ∧ (writeAnswerTo s f).n = 8 ∧ (readAnswerTo s f d).st = 0 ∧ (readAnswerTo s f d).n = 8

/-- The reply mirrors the command below the echo depth (spec/41_codec_exchange.md R72). -/
def Mirrors (depth : EchoDepth) (sent reply : Frame) : Prop :=
  ∀ k : Fin 8, k.val < 2 + depth.beyond.val → getPos reply k = getPos sent k

/-- The state after an exchange whose two transfers succeeded, begun in `s`: `OUT` the command frame, `IN` the reply,
`PH` idle, the two transfers and the delay done, the outcome given, everything else as it was
(spec/41_codec_exchange.md R74). -/
def afterExchange (s : State) (f : Frame) (d : DelayMs) (o : OpOutcome) : State :=
  { s with
    out := f
    inb := (readAnswerTo s f d).data
    ph := .idle
    outcome := some o
    writeAnswers := s.writeAnswers.tail
    readAnswers := s.readAnswers.tail
    draws := s.draws + 2
    tpLog := s.tpLog ++ exchangeEvents s f d }

/-- Operations one after another, as a host issues them that does not look at outcomes. -/
def runOps : List Instr → State → Host.Outcome State Fault Refusal
  | [], s => .next s
  | i :: is, s =>
    match exec i s with
    | .next t => runOps is t
    | .fault r => .fault r
    | .refused r => .refused r

/-- The command frames the block can emit (spec/30_encoding.md R48, read the other way round). -/
def FrameEmittable (f : Frame) : Prop :=
  f.b0 = 0x18 ∧ f.b6 = 0x00 ∧ f.b7 = 0x00 ∧
    ((f.b1 = 0x48 ∧ f.b2 = 0x00 ∧ f.b3 = 0x00 ∧ f.b4 = 0x00 ∧ f.b5 = 0x00) ∨
      (f.b1 = Config.cfg.opcWBit ∧ (f.b2 = 0x00 ∨ f.b2 = 0x01) ∧ f.b3 = 0x00 ∧ f.b4 = 0x00 ∧ f.b5 = 0x00) ∨
      (f.b1 = Config.cfg.opcWByte ∧ f.b3 = 0x00 ∧ f.b4 = 0x00 ∧ f.b5 = 0x00) ∨
      f.b1 = Config.cfg.opcW4 ∨
      (f.b1 = Config.cfg.opcR2 ∧ f.b2 = 0x01 ∧ f.b3 = 0x01 ∧ f.b4 = 0x00 ∧ f.b5 = 0x00) ∨
      (f.b1 = Config.cfg.opcRByte ∧ f.b2 = 0xFF ∧ f.b3 = 0x00 ∧ f.b4 = 0x00 ∧ f.b5 = 0x00) ∨
      (f.b1 = Config.cfg.opcR4 ∧ f.b2 = 0xFF ∧ f.b3 = 0xFF ∧ f.b4 = 0xFF ∧ f.b5 = 0xFF))

/-- The channel logs the rules allow: a row of exchanges, each a write of an emittable frame through the session's handle
with the 5000 ms timeout, then nothing more (a failed write) or a delay of 1 or 2 ms and one read
(spec/20_memory.md R28, R31, R32; spec/41_codec_exchange.md R64, R68, R73). -/
def TpLogLegal (handle : Nat) : List TpEvent → Prop
  | [] => True
  | .write h f t :: .delay ms :: .read h' t' :: rest =>
    h = handle ∧ t = 5000 ∧ FrameEmittable f ∧ (ms = 1 ∨ ms = 2) ∧ h' = handle ∧ t' = 5000 ∧ TpLogLegal handle rest
  | .write h f t :: rest => h = handle ∧ t = 5000 ∧ FrameEmittable f ∧ TpLogLegal handle rest
  | .delay _ :: _ => False
  | .read _ _ :: _ => False

/-- What holds of a session between operations: no primitive is running (spec/10_state.md R15), the channel has seen
nothing but legal exchanges, and before the first operation ends nothing has happened (spec/10_state.md R16). -/
def SessionInv (s : State) : Prop :=
  s.ph = .idle ∧ TpLogLegal s.session.handle s.tpLog ∧
    (s.outcome = none → s.crcWritten = false ∧ s.tpLog = [])

end Sys2Proof.Machine
end

