-- ==== Sys2Proof/Certificates/Slice0/Obligations.lean ====
section
/-! DEFINITION. The statements for the provers. `busUse i = some u` says that `i` is one of the seven primitives and `u`
its row of the table of spec/42_bus_primitives.md R75. -/

open Sys2Proof Sys2Proof.Machine

/-! ### Encoding, issue, reset -/

/-- Every operation, with every operand, is what its word decodes to (spec/30_encoding.md section 1). The selector values
are the spec's own labels (log 14). -/
def Obligations.DecodeOfEncodeIsTheOperation : Prop :=
  ∀ i : Instr, decode (encode i) = .ok i

/-- A word that decodes to an operation is that operation's word but for operand bits the decoder ignores
(spec/30_encoding.md section 1; the ignored bits are the spec's own choice, log 14). -/
def Obligations.EncodeOfDecodeKeepsTheMaskedBits : Prop :=
  ∀ (w : HostWord) (i : Instr), decode w = .ok i → encode i = w &&& encodingMask i

/-- Exactly the words with selector 0x3 to 0x7 or 0xF are refused, and by that name (spec/30_encoding.md section 4; the
selector values and the refusal are the spec's own choice, log 14). -/
def Obligations.DecodeRefusesExactlyReservedSelectors : Prop :=
  ∀ (w : HostWord) (sel : Selector), decode w = .error (.reservedSelector sel) ↔
    HostWord.sel w = sel ∧ (sel = 0x3 ∨ sel = 0x4 ∨ sel = 0x5 ∨ sel = 0x6 ∨ sel = 0x7 ∨ sel = 0xF)

/-- Words of the programs of spec/95_test_vectors.md section 4 are the operations printed beside them. -/
def Obligations.PrintedHostWordsDecodeAsPrinted : Prop :=
  decode 0x000000000 = .ok (.crcSet 0x00) ∧ decode 0x100000028 = .ok (.fold 0x28) ∧
    decode 0x200000000 = .ok .verify ∧ decode 0x800000000 = .ok .reset ∧ decode 0x900000001 = .ok (.writeBit 1) ∧
    decode 0xA000000CC = .ok (.writeByte 0xCC) ∧ decode 0xB1E64FF28 = .ok (.write4Bytes 0x1E64FF28) ∧
    decode 0xC00000000 = .ok .read2BitPair ∧ decode 0xD00000000 = .ok .readByte ∧ decode 0xE00000000 = .ok .read4Bytes

/-- When no primitive is running and the host issues a word that decodes to `i`, a step is `exec i` with that word taken
from the host's list (spec/00_scope.md section 1; the list is the model's own, log 5). -/
def Obligations.StepRunsTheIssuedOperation : Prop :=
  ∀ (s : State) (w : HostWord) (rest : List HostWord) (i : Instr),
    s.ph = .idle → s.hostOps = w :: rest → decode w = .ok i → step s = exec i { s with hostOps := rest }

/-- The word placed by `withFetchWord` is the one the next step runs (model's own interface, log 5). -/
def Obligations.StepRunsThePlacedWord : Prop :=
  ∀ (s : State) (nbits w : Nat) (i : Instr),
    s.ph = .idle → decodeTableWord nbits w = some i → step (s.withFetchWord nbits w) = exec i s

/-- What a step does when it runs no operation: nothing while the host issues nothing; a refusal by name for a reserved
selector; a fault when an operation is issued while one is running (spec/70_reset_and_hazards.md sections 2 and 3,
spec/30_encoding.md section 4; logs 5, 14, 15). -/
def Obligations.StepWithoutARunnableOperation : Prop :=
  (∀ s : State, s.hostOps = [] → step s = .next s) ∧
    (∀ (s : State) (w : HostWord) (rest : List HostWord), s.ph = .idle → s.hostOps = w :: rest →
      HostWord.sel w ∈ [0x3#4, 0x4#4, 0x5#4, 0x6#4, 0x7#4, 0xF#4] →
      step s = .refused (.reservedSelector (HostWord.sel w))) ∧
    (∀ (s : State) (w : HostWord) (rest : List HostWord), s.ph ≠ .idle → s.hostOps = w :: rest →
      step s = .fault .sessionBusy)

/-- Session start, as far as the spec gives values: `PH` is `IDLE`, no operation has ended, nothing has written `CRC`
(spec/70_reset_and_hazards.md section 1). -/
def Obligations.SessionStartValues : Prop :=
  State.reset.ph = .idle ∧ State.reset.outcome = none ∧ State.reset.crcWritten = false

/-! ### Unit CRC -/

/-- `crcSet(a)`: `CRC <- a`, outcome `Ok`, at any time; nothing else changes (R53). -/
def Obligations.CrcSetLoadsTheAccumulator : Prop :=
  ∀ (a : Byte) (s : State),
    exec (.crcSet a) s = .next { s with crc := a, crcWritten := true, outcome := some (.ok none) }

/-- `fold(b)` on a written accumulator: `CRC <- foldstep8(CRC, b)`, which is also the result, outcome `Ok`; nothing else
changes (R54). -/
def Obligations.FoldReplacesAndReturnsTheAccumulator : Prop :=
  ∀ (b : Byte) (s : State), s.crcWritten = true →
    exec (.fold b) s =
      .next { s with crc := foldStep8 s.crc b, outcome := some (.ok (some (.crc (foldStep8 s.crc b)))) }

/-- `verify()` on a written accumulator: `Ok` without a result when `CRC` is zero, otherwise `ChecksumMismatch`; `CRC` and
everything else keep their values, so a second `verify` gives the same outcome (R57). `PH` returns to `IDLE` where the
error is raised. -/
def Obligations.VerifyPassesExactlyOnZero : Prop :=
  ∀ s : State, s.crcWritten = true →
    (s.crc = 0x00 → exec .verify s = .next { s with outcome := some (.ok none) }) ∧
    (s.crc ≠ 0x00 →
      exec .verify s = .next { s with ph := .idle, outcome := some (.error .checksumMismatch) }) ∧
    (∀ t, exec .verify s = .next t → ∃ u, exec .verify t = .next u ∧ u.outcome = t.outcome)

/-- `fold` and `verify` have no meaning before the first write of `CRC` and fault (spec/10_state.md section 2; the fault is
the spec's own decision D2). No operation but these two ever faults, and only there; none is refused. -/
def Obligations.OnlyFoldAndVerifyFaultAndOnlyUnwritten : Prop :=
  ∀ (i : Instr) (s : State),
    (∀ r, exec i s = .fault r ↔
      r = .crcUnwritten ∧ s.crcWritten = false ∧ ((∃ b, i = .fold b) ∨ i = .verify)) ∧
    ∀ r, exec i s ≠ .refused r

/-- `CRC` is written by `crcSet` and `fold` only: no other operation changes it, or makes it count as written
(spec/10_state.md section 2). -/
def Obligations.OnlyCrcSetAndFoldWriteTheAccumulator : Prop :=
  ∀ (i : Instr) (s t : State), exec i s = .next t →
    (∀ a, i ≠ .crcSet a) → (∀ b, i ≠ .fold b) → t.crc = s.crc ∧ t.crcWritten = s.crcWritten

/-- One bit position as a single expression: shift right, then exclusive-or 0x8C when the tested bit is 1 (spec/40_crc.md
section 2, first law; derived there). -/
def Obligations.FoldBitIsShiftThenXor8C : Prop :=
  ∀ (acc : Byte) (t : Bool), foldBit acc t = (acc >>> 1) ^^^ (if t then 0x8C else 0x00)

/-- `foldstep8(acc, byte)` is eight bit positions in the order i = 0, 1, ..., 7, each on the running value: shift right, then
exclusive-or 0x8C when the running value's low bit differs from bit `i` of the byte (spec/40_crc.md section 1, R55 and R56,
with the one-position form of its section 2; that the order is ascending is the spec's conclusion, log 10). -/
def Obligations.FoldStepIsEightPositionsAscending : Prop :=
  ∀ acc byte : Byte,
    let position (a : Byte) (i : Nat) : Byte := (a >>> 1) ^^^ (if a.getLsbD 0 ^^ byte.getLsbD i then 0x8C else 0x00)
    foldStep8 acc byte =
      position (position (position (position (position (position (position (position acc 0) 1) 2) 3) 4) 5) 6) 7

/-- The step function is linear over exclusive-or and depends on `acc ^ byte` only (spec/40_crc.md section 2, the table
law; derived there). -/
def Obligations.FoldStepIsLinear : Prop :=
  (∀ a1 a2 b1 b2 : Byte, foldStep8 (a1 ^^^ a2) (b1 ^^^ b2) = foldStep8 a1 b1 ^^^ foldStep8 a2 b2) ∧
    (∀ acc byte : Byte, foldStep8 acc byte = foldStep8 0x00 (acc ^^^ byte))

/-- Data followed by its own check byte verifies, from every start value and every state: after `crcSet(s)`,
`fold(d0)` ... `fold(dn)` leave some `c`, one more `fold(c)` leaves zero and `verify()` gives `Ok` (spec/40_crc.md
section 2, self-annihilation; derived there). -/
def Obligations.DataThenItsCheckByteVerifies : Prop :=
  ∀ (start : Byte) (bytes : List Byte) (s : State),
    ∃ t, runOps (.crcSet start :: bytes.map .fold) s = .next t ∧
      ∃ u, runOps [.fold t.crc, .verify] t = .next u ∧ u.crc = 0x00 ∧ u.outcome = some (.ok none)

/-- Changing exactly one byte of a checked item always changes the final accumulator (spec/40_crc.md section 2, error
detection; derived there), whatever stands before and after it. -/
def Obligations.OneChangedByteChangesTheAccumulator : Prop :=
  ∀ (start x y : Byte) (before after : List Byte) (s t u : State), x ≠ y →
    runOps (.crcSet start :: (before ++ x :: after).map .fold) s = .next t →
    runOps (.crcSet start :: (before ++ y :: after).map .fold) s = .next u →
    t.crc ≠ u.crc

/-! ### The seven primitives: normal completion -/

/-- `reset()` when both transfers succeed and the reply mirrors the frame `18 48 00 ...` to its depth: `Ok`, no result
(spec/42_bus_primitives.md section 2; `ED_RESET` and `DELAY(reset)` are open, log 9). -/
def Obligations.ResetCompletes : Prop :=
  ∀ s : State,
    let f : Frame := ⟨0x18, 0x48, 0x00, 0x00, 0x00, 0x00, 0x00, 0x00⟩
    let d := Config.cfg.delayReset
    BothSucceed s f d → Mirrors Config.cfg.edReset f (readAnswerTo s f d).data →
    exec .reset s = .next (afterExchange s f d (.ok none))

/-- `writeBit(bit)`: the frame carries 0x00 or 0x01 at position 2 (spec/42_bus_primitives.md section 2; that the bit is a
whole byte is the spec's own decision D10, and opcode, depth and delay are open, log 9). -/
def Obligations.WriteBitCompletes : Prop :=
  ∀ (bit : BitVec 1) (s : State),
    let f : Frame := ⟨0x18, Config.cfg.opcWBit, if bit = 1 then 0x01 else 0x00, 0x00, 0x00, 0x00, 0x00, 0x00⟩
    let d := Config.cfg.delayWBit
    BothSucceed s f d → Mirrors Config.cfg.edWBit f (readAnswerTo s f d).data →
    exec (.writeBit bit) s = .next (afterExchange s f d (.ok none))

/-- `writeByte(b)` with a delay of 1 ms (spec/42_bus_primitives.md section 2; opcode and depth are open, log 9). -/
def Obligations.WriteByteCompletes : Prop :=
  ∀ (b : Byte) (s : State),
    let f : Frame := ⟨0x18, Config.cfg.opcWByte, b, 0x00, 0x00, 0x00, 0x00, 0x00⟩
    BothSucceed s f .ms1 → Mirrors Config.cfg.edWByte f (readAnswerTo s f .ms1).data →
    exec (.writeByte b) s = .next (afterExchange s f .ms1 (.ok none))

/-- `write4Bytes(word)`, least significant byte first, with a delay of 2 ms (spec/42_bus_primitives.md section 2; opcode
and depth are open, log 9). -/
def Obligations.Write4BytesCompletes : Prop :=
  ∀ (w : Word) (s : State),
    let f : Frame := ⟨0x18, Config.cfg.opcW4, w.extractLsb' 0 8, w.extractLsb' 8 8, w.extractLsb' 16 8,
      w.extractLsb' 24 8, 0x00, 0x00⟩
    BothSucceed s f .ms2 → Mirrors Config.cfg.edW4 f (readAnswerTo s f .ms2).data →
    exec (.write4Bytes w) s = .next (afterExchange s f .ms2 (.ok none))

/-- `read2BitPair()` when the header is mirrored: the result is the bytes of positions 2 and 3, each under `R2_MASK`
(spec/42_bus_primitives.md section 2, spec/30_encoding.md section 3; the mask is open by the spec's own decision D11, log
11; opcode and delay are open, log 9). -/
def Obligations.Read2BitPairCompletes : Prop :=
  ∀ s : State,
    let f : Frame := ⟨0x18, Config.cfg.opcR2, 0x01, 0x01, 0x00, 0x00, 0x00, 0x00⟩
    let d := Config.cfg.delayR2
    let m := Config.cfg.r2Mask
    let reply := (readAnswerTo s f d).data
    BothSucceed s f d → reply.b0 = 0x18 → reply.b1 = Config.cfg.opcR2 →
    exec .read2BitPair s =
      .next (afterExchange s f d (.ok (some (.pair (reply.b2 &&& m) (reply.b3 &&& m)))))

/-- Under the mask 0x01 the pair is the low bits of positions 2 and 3, the other bits dropped, and the number
`bit0 | (bit1 << 1)` is 0 to 3 (spec/42_bus_primitives.md section 2, R80; 0x01 is the default of the open `R2_MASK`, D11, log
11). -/
def Obligations.PairUnderMaskOneIsTheTwoLowBits : Prop :=
  ∀ reply : Frame, ∃ bit0 bit1 : Byte, pairResult 0x01 reply = some (.pair bit0 bit1) ∧
    bit0.toNat = (reply.b2.getLsbD 0).toNat ∧ bit1.toNat = (reply.b3.getLsbD 0).toNat ∧
    pairNumber bit0 bit1 = (reply.b2.getLsbD 0).toNat + 2 * (reply.b3.getLsbD 0).toNat

/-- `readByte()` when the header is mirrored: the result is position 2, the rest of the reply ignored
(spec/42_bus_primitives.md section 2; the opcode is open, log 9). -/
def Obligations.ReadByteCompletes : Prop :=
  ∀ s : State,
    let f : Frame := ⟨0x18, Config.cfg.opcRByte, 0xFF, 0x00, 0x00, 0x00, 0x00, 0x00⟩
    let reply := (readAnswerTo s f .ms1).data
    BothSucceed s f .ms1 → reply.b0 = 0x18 → reply.b1 = Config.cfg.opcRByte →
    exec .readByte s = .next (afterExchange s f .ms1 (.ok (some (.byte reply.b2))))

/-- `read4Bytes()` when the header is mirrored: the result is positions 2 to 5, position 2 least significant
(spec/42_bus_primitives.md section 2; the opcode is open, log 9). -/
def Obligations.Read4BytesCompletes : Prop :=
  ∀ s : State,
    let f : Frame := ⟨0x18, Config.cfg.opcR4, 0xFF, 0xFF, 0xFF, 0xFF, 0x00, 0x00⟩
    let reply := (readAnswerTo s f .ms2).data
    BothSucceed s f .ms2 → reply.b0 = 0x18 → reply.b1 = Config.cfg.opcR4 →
    exec .read4Bytes s =
      .next (afterExchange s f .ms2 (.ok (some (.word (reply.b5 ++ reply.b4 ++ reply.b3 ++ reply.b2)))))

/-- Every primitive answers a next state in every state, whatever the transport does: no transfer, no error and no open
value ends a run (spec/60_exceptions.md section 3). `PH` is then `IDLE` and an outcome has been given. -/
def Obligations.PrimitivesAlwaysEndWithAnOutcome : Prop :=
  ∀ (i : Instr) (u : BusUse) (s : State), busUse i = some u →
    ∃ t o, exec i s = .next t ∧ t.ph = .idle ∧ t.outcome = some o ∧ o ≠ .error .checksumMismatch

/-! ### The exchange, every outcome -/

/-- `TransportError` exactly when a transfer fails: the write, or after a successful write the read; a transfer fails when
its status is not zero or its count is not 8, a count above 8 too (spec/20_memory.md section 2, R27; spec/60_exceptions.md
section 1, R103). That with a nonzero status the error carries that status and the transport's text is the model's choice, log
13 (DESIGN CHOICE): R27 and R103 say so, while point U5 of spec/93_implementation_defined.md allows any value in both fields of
every `TransportError`. With a zero status both are free values. -/
def Obligations.TransportErrorExactlyOnAFailedTransfer : Prop :=
  ∀ (i : Instr) (u : BusUse) (s t : State), busUse i = some u → exec i s = .next t →
    let w := writeAnswerTo s u.frame
    let r := readAnswerTo s u.frame u.delay
    ((∃ code text, t.outcome = some (.error (.transportError code text))) ↔
      (w.st ≠ 0 ∨ w.n ≠ 8) ∨ (r.st ≠ 0 ∨ r.n ≠ 8)) ∧
    (w.st ≠ 0 → t.outcome = some (.error (.transportError w.st w.desc))) ∧
    (w.st = 0 → w.n = 8 → r.st ≠ 0 → t.outcome = some (.error (.transportError r.st r.desc)))

/-- A failed write ends the exchange at once: the frame is in `OUT`, `IN` is all zero, the channel has seen the write and
neither a delay nor a read, no read answer is used up; everything else is as it was. That the later steps are skipped is
the spec's own decision D13. -/
def Obligations.FailedWriteSkipsDelayAndRead : Prop :=
  ∀ (i : Instr) (u : BusUse) (s : State), busUse i = some u →
    (writeAnswerTo s u.frame).st ≠ 0 ∨ (writeAnswerTo s u.frame).n ≠ 8 →
    ∃ code text, exec i s =
      .next { s with
        out := u.frame
        inb := ⟨0, 0, 0, 0, 0, 0, 0, 0⟩
        ph := .idle
        outcome := some (.error (.transportError code text))
        writeAnswers := s.writeAnswers.tail
        draws := s.draws + 1
        tpLog := s.tpLog ++ [writeEvent s u.frame] }

/-- A failed read ends the exchange with `TransportError`, no comparison and no result, whatever the bytes were; the
command has been delivered and is neither undone nor repeated; `IN` is not determined; all else is as after a whole
exchange (R71). -/
def Obligations.FailedReadEndsWithoutComparison : Prop :=
  ∀ (i : Instr) (u : BusUse) (s : State), busUse i = some u →
    (writeAnswerTo s u.frame).st = 0 → (writeAnswerTo s u.frame).n = 8 →
    (readAnswerTo s u.frame u.delay).st ≠ 0 ∨ (readAnswerTo s u.frame u.delay).n ≠ 8 →
    ∃ code text anyIn, exec i s =
      .next { afterExchange s u.frame u.delay (.error (.transportError code text)) with inb := anyIn }

/-- `EchoMismatch` exactly when both transfers succeed and the reply differs from the command at some position below the
echo depth; the state is then that of a whole exchange (R104). -/
def Obligations.EchoMismatchExactlyOnADifferingReply : Prop :=
  ∀ (i : Instr) (u : BusUse) (s t : State), busUse i = some u → exec i s = .next t →
    (t.outcome = some (.error .echoMismatch) ↔
      BothSucceed s u.frame u.delay ∧ ¬ Mirrors u.depth u.frame (readAnswerTo s u.frame u.delay).data) ∧
    (t.outcome = some (.error .echoMismatch) →
      t = afterExchange s u.frame u.delay (.error .echoMismatch))

/-- A reply whose header differs from the command's makes every primitive, with every echo depth, end with `EchoMismatch`
and no result (the source's echo property, spec/41_codec_exchange.md section 2). -/
def Obligations.WrongHeaderNeverPasses : Prop :=
  ∀ (i : Instr) (u : BusUse) (s t : State), busUse i = some u → exec i s = .next t →
    BothSucceed s u.frame u.delay →
    (readAnswerTo s u.frame u.delay).data.b0 ≠ u.frame.b0 ∨ (readAnswerTo s u.frame u.delay).data.b1 ≠ u.frame.b1 →
    t.outcome = some (.error .echoMismatch)

/-- A read-type primitive delivers a result if and only if its outcome is `Ok`; a write-type one never does (R84). -/
def Obligations.ResultExactlyWithOk : Prop :=
  ∀ (i : Instr) (u : BusUse) (s t : State), busUse i = some u → exec i s = .next t →
    ((∃ v, t.outcome = some (.ok (some v))) ↔ readType i = true ∧ ∃ r, t.outcome = some (.ok r))

/-- One exchange makes at most one write and at most one read, in that order; one that ends `Ok` has made exactly one of
each (R73). What was on the channel before stays. -/
def Obligations.OneWriteAndAtMostOneRead : Prop :=
  ∀ (i : Instr) (u : BusUse) (s t : State), busUse i = some u → exec i s = .next t →
    (t.tpLog = s.tpLog ++ [writeEvent s u.frame] ∨ t.tpLog = s.tpLog ++ exchangeEvents s u.frame u.delay) ∧
    ((∃ r, t.outcome = some (.ok r)) → t.tpLog = s.tpLog ++ exchangeEvents s u.frame u.delay)

/-- Whatever the outcome, `OUT` holds the primitive's command frame: 0x18, the opcode, the payload, and 0x00 at every other
position, nothing left of an earlier command (spec/30_encoding.md section 2, R40, R42, R45; spec/41_codec_exchange.md sections
2 and 3, R66, R74). The payload byte of `writeBit`, 0x01 or 0x00, is the spec's own decision D10 (log 19). -/
def Obligations.OutIsTheCommandFrameWhateverTheOutcome : Prop :=
  ∀ (i : Instr) (u : BusUse) (s t : State), busUse i = some u → exec i s = .next t → t.out = u.frame

/-- On a successful read the eight bytes of the reply replace `IN`, position by position (R70). -/
def Obligations.ReplyReplacesTheInboundBuffer : Prop :=
  ∀ (i : Instr) (u : BusUse) (s t : State), busUse i = some u → exec i s = .next t →
    BothSucceed s u.frame u.delay → t.inb = (readAnswerTo s u.frame u.delay).data

/-- Multi-byte operands are little-endian: `write4Bytes` puts bits 7..0 of the word at position 2 and so on, whatever the
outcome, and `read4Bytes` assembles its result from positions 2 to 5 of `IN` the same way (R29). -/
def Obligations.WordsAreLittleEndianInTheBuffers : Prop :=
  (∀ (w : Word) (s t : State), exec (.write4Bytes w) s = .next t →
    t.out.b2 = w.extractLsb' 0 8 ∧ t.out.b3 = w.extractLsb' 8 8 ∧ t.out.b4 = w.extractLsb' 16 8 ∧
      t.out.b5 = w.extractLsb' 24 8) ∧
  (∀ (s t : State) (v : Word), exec .read4Bytes s = .next t → t.outcome = some (.ok (some (.word v))) →
    v = t.inb.b2.setWidth 32 ||| t.inb.b3.setWidth 32 <<< 8 ||| t.inb.b4.setWidth 32 <<< 16 |||
      t.inb.b5.setWidth 32 <<< 24)

/-- The frame of the primitives, every outcome: only `OUT`, `IN`, `PH`, `OUTCOME` and the channel's own records change;
`CRC`, whether it is written, the session record and the host's list stay (spec/41_codec_exchange.md section 3,
spec/70_reset_and_hazards.md section 1). -/
def Obligations.PrimitivesLeaveCrcAndSessionAlone : Prop :=
  ∀ (i : Instr) (u : BusUse) (s t : State), busUse i = some u → exec i s = .next t →
    t.crc = s.crc ∧ t.crcWritten = s.crcWritten ∧ t.session = s.session ∧ t.hostOps = s.hostOps ∧
      t.writeAnswers = s.writeAnswers.tail ∧ (t.readAnswers = s.readAnswers ∨ t.readAnswers = s.readAnswers.tail)

/-- The operations of unit CRC never touch the buffers, the session or the channel (spec/20_memory.md section 1; derived
there); of `PH` they change nothing but its return to `IDLE` where `verify` raises. -/
def Obligations.CrcOperationsNeverTouchTheChannel : Prop :=
  ∀ (i : Instr) (s t : State), busUse i = none → exec i s = .next t →
    t.out = s.out ∧ t.inb = s.inb ∧ t.session = s.session ∧ t.hostOps = s.hostOps ∧
      t.writeAnswers = s.writeAnswers ∧ t.readAnswers = s.readAnswers ∧ t.draws = s.draws ∧ t.tpLog = s.tpLog ∧
      (t.ph = s.ph ∨ (t.ph = .idle ∧ t.outcome = some (.error .checksumMismatch)))

/-- Statelessness: two states whose transport gives a primitive the same answer to its write and, where that write
succeeded, the same answer to its read, see the same `OUT` and the same outcome with its result, whatever else differs between
them: `CRC`, the buffers, earlier outcomes (spec/42_bus_primitives.md section 3, R83). Where a transfer failed short with a
zero code, the fields of the error are free values, and the outcome is a `TransportError` on both sides. That exception, and
that equal nonzero codes give equal errors (third clause), is the model's choice, log 13 (DESIGN CHOICE): it follows R27 and R103
where point U5 of spec/93_implementation_defined.md allows any value in both fields of every `TransportError`. -/
def Obligations.PrimitivesAreStateless : Prop :=
  ∀ (i : Instr) (u : BusUse) (s1 s2 t1 t2 : State), busUse i = some u →
    let w := writeAnswerTo s1 u.frame
    let r := readAnswerTo s1 u.frame u.delay
    writeAnswerTo s2 u.frame = w →
    (w.st = 0 → w.n = 8 → readAnswerTo s2 u.frame u.delay = r) →
    exec i s1 = .next t1 → exec i s2 = .next t2 →
    t1.out = t2.out ∧
    (t1.outcome = t2.outcome ∨
      (∃ code text, t1.outcome = some (.error (.transportError code text))) ∧
        ∃ code text, t2.outcome = some (.error (.transportError code text))) ∧
    ((w.st = 0 → w.n = 8) → (w.st = 0 → r.st = 0 → r.n = 8) → t1.outcome = t2.outcome)

/-- An error ends an operation and leaves nothing else behind: the outcome is the error, without a result, `PH` is `IDLE`,
`CRC` keeps its value, and the host's next operation is accepted (spec/60_exceptions.md section 3). -/
def Obligations.ErrorsLeaveTheBlockReady : Prop :=
  ∀ (i : Instr) (s t : State) (e : OpError), exec i s = .next t → t.outcome = some (.error e) →
    t.ph = .idle ∧ t.crc = s.crc ∧ t.crcWritten = s.crcWritten ∧
      ∀ (w : HostWord) (rest : List HostWord) (j : Instr), t.hostOps = w :: rest → decode w = .ok j →
        step t = exec j { t with hostOps := rest }

/-! ### Whole-machine rules -/

/-- Every step keeps the session invariant: no primitive running between operations, a channel log of legal exchanges only
(an emittable frame, one write, then nothing or one delay and one read, through the session's own handle), no outcome
before the first operation (spec/41_codec_exchange.md section 3, spec/30_encoding.md section 4, spec/10_state.md). -/
def Obligations.StepKeepsTheSessionInvariant : Prop :=
  ∀ s t : State, SessionInv s → step s = .next t → SessionInv t

/-- The session invariant holds at session start. -/
def Obligations.SessionStartMeetsTheInvariant : Prop := SessionInv State.reset

/-- In a session that meets the invariant a step never faults for a running operation (spec/70_reset_and_hazards.md
section 2): it faults only when the issued word decodes to `fold` or `verify` and nothing has written `CRC` (log 16), and it is
refused only when the issued word's selector is one of the reserved 0x3 to 0x7 and 0xF, by that name (log 14). -/
def Obligations.InvariantSessionsStopOnlyForTheHostsMistakes : Prop :=
  ∀ s : State, SessionInv s →
    (∀ r, step s = .fault r → r = .crcUnwritten ∧ s.crcWritten = false ∧
      ∃ w rest, s.hostOps = w :: rest ∧ ((∃ b, decode w = .ok (.fold b)) ∨ decode w = .ok .verify)) ∧
    (∀ r, step s = .refused r → ∃ w rest, s.hostOps = w :: rest ∧ r = .reservedSelector (HostWord.sel w) ∧
      HostWord.sel w ∈ [0x3#4, 0x4#4, 0x5#4, 0x6#4, 0x7#4, 0xF#4])

/-- No operation changes the session record, and a step takes at most the first operation of the host's list
(spec/10_state.md section 3). -/
def Obligations.StepKeepsTheSessionRecord : Prop :=
  ∀ s t : State, step s = .next t → t.session = s.session ∧ t.hostOps = s.hostOps.tail

/-- When a run finishes: from a state with no primitive running, the host's list runs to its end, with `PH` at `IDLE` and
nothing stopped, if and only if every word of it is an operation and every `fold` or `verify` in it finds `CRC` written, before
the run or by a `crcSet` earlier in the list, whatever the transport answers (spec/70_reset_and_hazards.md section 3; the
definition of a finished run is the spec's own decision D31; the list is the model's own, log 5; logs 14 and 16). -/
def Obligations.RunsFinishExactlyOnLegalOperations : Prop :=
  ∀ s : State, s.ph = .idle →
    (FinishedRun (runSteps s.hostOps.length s) ↔
      ∀ before w after, s.hostOps = before ++ w :: after → ∃ i, decode w = .ok i ∧
        ((∃ b, i = .fold b) ∨ i = .verify →
          s.crcWritten = true ∨ ∃ v ∈ before, ∃ a, decode v = .ok (.crcSet a)))

/-- The two host programs on the block always come to a finished run, from every state, with every `CRC_INIT` (the
programs read nothing else of the configuration, log 22) and whatever the transport answers:
they return a value or their terminal error, `PH` is `IDLE`, and the block never stops under them, since every check begins
with `crcSet` (spec/70_reset_and_hazards.md section 3, spec/43_host_sequences.md sections 2 and 3; the spec's own decisions D24
to D31, log 20). -/
def Obligations.HostProgramsAlwaysFinish : Prop :=
  (∀ (c : Cfg) (topDepth : Int) (s : State), ProgramFinished (searchAll blockIssue c topDepth s)) ∧
    ∀ (c : Cfg) (famDs1822 : Byte) (rom : Rom) (s : State), ProgramFinished (readTemperature blockIssue c famDs1822 rom s)

/-! ### The host's data forms -/

/-- A Rom written as hexadecimal text and read back is the same Rom, for all 64-bit values (spec/43_host_sequences.md
section 4; the form of the text is the spec's own decision D29, log 20). -/
def Obligations.AddressTextRoundTrips : Prop :=
  ∀ rom : Rom, romOfText (romToText rom) = .ok rom

/-- A raw value `k`, two's complement, is `k / 16` degrees for the DS18B20 family 0x28, `k / 2` for the DS18S20 family 0x10
and the sentinel 1000 for an unknown one (spec/43_host_sequences.md section 3; the DS1822 family byte is open and kept
apart from 0x10, log 20). -/
def Obligations.TemperatureConversionByFamily : Prop :=
  ∀ (famDs1822 family : Byte) (raw : BitVec 16), famDs1822 ≠ 0x10 →
    (family = 0x28 ∨ family = famDs1822 → 16 * convertTemperature famDs1822 family raw = (raw.toInt : Rat)) ∧
    (family = 0x10 → 2 * convertTemperature famDs1822 family raw = (raw.toInt : Rat)) ∧
    (family ≠ 0x28 → family ≠ famDs1822 → family ≠ 0x10 → convertTemperature famDs1822 family raw = 1000)
end

