-- ==== Sys2Proof/Laws/Decode.lean ====
section
/-! SUPPORT. The fields of a host word, and what decoding can answer. -/

namespace Sys2Proof

/-- The bits of a word: the operand below 32, the selector above. -/
theorem hostWord_getLsbD (sel : Selector) (opd : BitVec 32) (i : Nat) :
    (hostWord sel opd).getLsbD i = if i < 32 then opd.getLsbD i else sel.getLsbD (i - 32) := by
  show (sel ++ opd : BitVec (4 + 32)).getLsbD i = _
  exact BitVec.getLsbD_append

@[simp] theorem sel_hostWord (sel : Selector) (opd : BitVec 32) : HostWord.sel (hostWord sel opd) = sel := by
  apply BitVec.eq_of_getLsbD_eq
  intro i hi
  have : ¬ 32 + i < 32 := by omega
  simp [HostWord.sel, hostWord_getLsbD, hi]

@[simp] theorem opd_hostWord (sel : Selector) (opd : BitVec 32) : HostWord.opd (hostWord sel opd) = opd := by
  apply BitVec.eq_of_getLsbD_eq
  intro i hi
  simp [HostWord.opd, hostWord_getLsbD, hi]

/-- A word is its two fields. -/
theorem hostWord_fields (w : HostWord) : hostWord (HostWord.sel w) (HostWord.opd w) = w := by
  apply BitVec.eq_of_getLsbD_eq
  intro i hi
  rw [hostWord_getLsbD]
  simp only [HostWord.opd, HostWord.sel, BitVec.getLsbD_extractLsb']
  by_cases h : i < 32
  · simp [h]
  · have e : 32 + (i - 32) = i := by omega
    have l : i - 32 < 4 := by omega
    simp [h, e, l]

/-- Cutting a widened operand back gives the operand. -/
theorem extract_setWidth {n : Nat} (h : n ≤ 32) (x : BitVec n) : (x.setWidth 32).extractLsb' 0 n = x := by
  apply BitVec.eq_of_getLsbD_eq
  intro i hi
  have : i < 32 := by omega
  simp [hi, this]

/-- What decoding answers, selector by selector (R37, R49). -/
theorem decode_ok_cases {w : HostWord} {i : Instr} (h : decode w = .ok i) :
    (HostWord.sel w = 0x0 ∧ i = .crcSet ((HostWord.opd w).extractLsb' 0 8)) ∨
    (HostWord.sel w = 0x1 ∧ i = .fold ((HostWord.opd w).extractLsb' 0 8)) ∨
    (HostWord.sel w = 0x2 ∧ i = .verify) ∨
    (HostWord.sel w = 0x8 ∧ i = .reset) ∨
    (HostWord.sel w = 0x9 ∧ i = .writeBit ((HostWord.opd w).extractLsb' 0 1)) ∨
    (HostWord.sel w = 0xA ∧ i = .writeByte ((HostWord.opd w).extractLsb' 0 8)) ∨
    (HostWord.sel w = 0xB ∧ i = .write4Bytes (HostWord.opd w)) ∨
    (HostWord.sel w = 0xC ∧ i = .read2BitPair) ∨
    (HostWord.sel w = 0xD ∧ i = .readByte) ∨
    (HostWord.sel w = 0xE ∧ i = .read4Bytes) := by
  unfold decode at h
  repeat' split at h
  all_goals first
    | (injection h with h; subst h; simp [*])
    | exact absurd h (by intro h; injection h)

end Sys2Proof
end

