-- ==== Sys2Proof/Laws/State.lean ====
section
/-! SUPPORT. One lemma per field per update of State. -/

namespace Sys2Proof.Machine

@[simp] theorem State.setCrc_crc (s : State) (v : Byte) : (s.setCrc v).crc = v := rfl
@[simp] theorem State.setCrc_crcWritten (s : State) (v : Byte) : (s.setCrc v).crcWritten = true := rfl
@[simp] theorem State.setCrc_out (s : State) (v : Byte) : (s.setCrc v).out = s.out := rfl
@[simp] theorem State.setCrc_inb (s : State) (v : Byte) : (s.setCrc v).inb = s.inb := rfl
@[simp] theorem State.setCrc_ph (s : State) (v : Byte) : (s.setCrc v).ph = s.ph := rfl
@[simp] theorem State.setCrc_outcome (s : State) (v : Byte) : (s.setCrc v).outcome = s.outcome := rfl
@[simp] theorem State.setCrc_session (s : State) (v : Byte) : (s.setCrc v).session = s.session := rfl
@[simp] theorem State.setCrc_hostOps (s : State) (v : Byte) : (s.setCrc v).hostOps = s.hostOps := rfl
@[simp] theorem State.setCrc_writeAnswers (s : State) (v : Byte) : (s.setCrc v).writeAnswers = s.writeAnswers := rfl
@[simp] theorem State.setCrc_readAnswers (s : State) (v : Byte) : (s.setCrc v).readAnswers = s.readAnswers := rfl
@[simp] theorem State.setCrc_draws (s : State) (v : Byte) : (s.setCrc v).draws = s.draws := rfl
@[simp] theorem State.setCrc_tpLog (s : State) (v : Byte) : (s.setCrc v).tpLog = s.tpLog := rfl

@[simp] theorem State.setPhase_crc (s : State) (p : Phase) : (s.setPhase p).crc = s.crc := rfl
@[simp] theorem State.setPhase_crcWritten (s : State) (p : Phase) : (s.setPhase p).crcWritten = s.crcWritten := rfl
@[simp] theorem State.setPhase_out (s : State) (p : Phase) : (s.setPhase p).out = s.out := rfl
@[simp] theorem State.setPhase_inb (s : State) (p : Phase) : (s.setPhase p).inb = s.inb := rfl
@[simp] theorem State.setPhase_ph (s : State) (p : Phase) : (s.setPhase p).ph = p := rfl
@[simp] theorem State.setPhase_outcome (s : State) (p : Phase) : (s.setPhase p).outcome = s.outcome := rfl
@[simp] theorem State.setPhase_session (s : State) (p : Phase) : (s.setPhase p).session = s.session := rfl
@[simp] theorem State.setPhase_hostOps (s : State) (p : Phase) : (s.setPhase p).hostOps = s.hostOps := rfl
@[simp] theorem State.setPhase_writeAnswers (s : State) (p : Phase) : (s.setPhase p).writeAnswers = s.writeAnswers := rfl
@[simp] theorem State.setPhase_readAnswers (s : State) (p : Phase) : (s.setPhase p).readAnswers = s.readAnswers := rfl
@[simp] theorem State.setPhase_draws (s : State) (p : Phase) : (s.setPhase p).draws = s.draws := rfl
@[simp] theorem State.setPhase_tpLog (s : State) (p : Phase) : (s.setPhase p).tpLog = s.tpLog := rfl

@[simp] theorem State.clearBuffers_crc (s : State) : (s.clearBuffers).crc = s.crc := rfl
@[simp] theorem State.clearBuffers_crcWritten (s : State) : (s.clearBuffers).crcWritten = s.crcWritten := rfl
@[simp] theorem State.clearBuffers_out (s : State) : (s.clearBuffers).out = zeroFrame := rfl
@[simp] theorem State.clearBuffers_inb (s : State) : (s.clearBuffers).inb = zeroFrame := rfl
@[simp] theorem State.clearBuffers_ph (s : State) : (s.clearBuffers).ph = s.ph := rfl
@[simp] theorem State.clearBuffers_outcome (s : State) : (s.clearBuffers).outcome = s.outcome := rfl
@[simp] theorem State.clearBuffers_session (s : State) : (s.clearBuffers).session = s.session := rfl
@[simp] theorem State.clearBuffers_hostOps (s : State) : (s.clearBuffers).hostOps = s.hostOps := rfl
@[simp] theorem State.clearBuffers_writeAnswers (s : State) : (s.clearBuffers).writeAnswers = s.writeAnswers := rfl
@[simp] theorem State.clearBuffers_readAnswers (s : State) : (s.clearBuffers).readAnswers = s.readAnswers := rfl
@[simp] theorem State.clearBuffers_draws (s : State) : (s.clearBuffers).draws = s.draws := rfl
@[simp] theorem State.clearBuffers_tpLog (s : State) : (s.clearBuffers).tpLog = s.tpLog := rfl

@[simp] theorem State.fillOut_crc (s : State) (opc : Byte) (payload : List Byte) : (s.fillOut opc payload).crc = s.crc := rfl
@[simp] theorem State.fillOut_crcWritten (s : State) (opc : Byte) (payload : List Byte) : (s.fillOut opc payload).crcWritten = s.crcWritten := rfl
@[simp] theorem State.fillOut_out (s : State) (opc : Byte) (payload : List Byte) : (s.fillOut opc payload).out = putBytes s.out 0 (magic :: opc :: payload) := rfl
@[simp] theorem State.fillOut_inb (s : State) (opc : Byte) (payload : List Byte) : (s.fillOut opc payload).inb = s.inb := rfl
@[simp] theorem State.fillOut_ph (s : State) (opc : Byte) (payload : List Byte) : (s.fillOut opc payload).ph = s.ph := rfl
@[simp] theorem State.fillOut_outcome (s : State) (opc : Byte) (payload : List Byte) : (s.fillOut opc payload).outcome = s.outcome := rfl
@[simp] theorem State.fillOut_session (s : State) (opc : Byte) (payload : List Byte) : (s.fillOut opc payload).session = s.session := rfl
@[simp] theorem State.fillOut_hostOps (s : State) (opc : Byte) (payload : List Byte) : (s.fillOut opc payload).hostOps = s.hostOps := rfl
@[simp] theorem State.fillOut_writeAnswers (s : State) (opc : Byte) (payload : List Byte) : (s.fillOut opc payload).writeAnswers = s.writeAnswers := rfl
@[simp] theorem State.fillOut_readAnswers (s : State) (opc : Byte) (payload : List Byte) : (s.fillOut opc payload).readAnswers = s.readAnswers := rfl
@[simp] theorem State.fillOut_draws (s : State) (opc : Byte) (payload : List Byte) : (s.fillOut opc payload).draws = s.draws := rfl
@[simp] theorem State.fillOut_tpLog (s : State) (opc : Byte) (payload : List Byte) : (s.fillOut opc payload).tpLog = s.tpLog := rfl

@[simp] theorem State.loadIn_crc (s : State) (f : Frame) : (s.loadIn f).crc = s.crc := rfl
@[simp] theorem State.loadIn_crcWritten (s : State) (f : Frame) : (s.loadIn f).crcWritten = s.crcWritten := rfl
@[simp] theorem State.loadIn_out (s : State) (f : Frame) : (s.loadIn f).out = s.out := rfl
@[simp] theorem State.loadIn_inb (s : State) (f : Frame) : (s.loadIn f).inb = f := rfl
@[simp] theorem State.loadIn_ph (s : State) (f : Frame) : (s.loadIn f).ph = s.ph := rfl
@[simp] theorem State.loadIn_outcome (s : State) (f : Frame) : (s.loadIn f).outcome = s.outcome := rfl
@[simp] theorem State.loadIn_session (s : State) (f : Frame) : (s.loadIn f).session = s.session := rfl
@[simp] theorem State.loadIn_hostOps (s : State) (f : Frame) : (s.loadIn f).hostOps = s.hostOps := rfl
@[simp] theorem State.loadIn_writeAnswers (s : State) (f : Frame) : (s.loadIn f).writeAnswers = s.writeAnswers := rfl
@[simp] theorem State.loadIn_readAnswers (s : State) (f : Frame) : (s.loadIn f).readAnswers = s.readAnswers := rfl
@[simp] theorem State.loadIn_draws (s : State) (f : Frame) : (s.loadIn f).draws = s.draws := rfl
@[simp] theorem State.loadIn_tpLog (s : State) (f : Frame) : (s.loadIn f).tpLog = s.tpLog := rfl

@[simp] theorem State.logTp_crc (s : State) (e : TpEvent) : (s.logTp e).crc = s.crc := rfl
@[simp] theorem State.logTp_crcWritten (s : State) (e : TpEvent) : (s.logTp e).crcWritten = s.crcWritten := rfl
@[simp] theorem State.logTp_out (s : State) (e : TpEvent) : (s.logTp e).out = s.out := rfl
@[simp] theorem State.logTp_inb (s : State) (e : TpEvent) : (s.logTp e).inb = s.inb := rfl
@[simp] theorem State.logTp_ph (s : State) (e : TpEvent) : (s.logTp e).ph = s.ph := rfl
@[simp] theorem State.logTp_outcome (s : State) (e : TpEvent) : (s.logTp e).outcome = s.outcome := rfl
@[simp] theorem State.logTp_session (s : State) (e : TpEvent) : (s.logTp e).session = s.session := rfl
@[simp] theorem State.logTp_hostOps (s : State) (e : TpEvent) : (s.logTp e).hostOps = s.hostOps := rfl
@[simp] theorem State.logTp_writeAnswers (s : State) (e : TpEvent) : (s.logTp e).writeAnswers = s.writeAnswers := rfl
@[simp] theorem State.logTp_readAnswers (s : State) (e : TpEvent) : (s.logTp e).readAnswers = s.readAnswers := rfl
@[simp] theorem State.logTp_draws (s : State) (e : TpEvent) : (s.logTp e).draws = s.draws := rfl
@[simp] theorem State.logTp_tpLog (s : State) (e : TpEvent) : (s.logTp e).tpLog = s.tpLog ++ [e] := rfl

@[simp] theorem State.tookWrite_crc (s : State) : (s.tookWrite).crc = s.crc := rfl
@[simp] theorem State.tookWrite_crcWritten (s : State) : (s.tookWrite).crcWritten = s.crcWritten := rfl
@[simp] theorem State.tookWrite_out (s : State) : (s.tookWrite).out = s.out := rfl
@[simp] theorem State.tookWrite_inb (s : State) : (s.tookWrite).inb = s.inb := rfl
@[simp] theorem State.tookWrite_ph (s : State) : (s.tookWrite).ph = s.ph := rfl
@[simp] theorem State.tookWrite_outcome (s : State) : (s.tookWrite).outcome = s.outcome := rfl
@[simp] theorem State.tookWrite_session (s : State) : (s.tookWrite).session = s.session := rfl
@[simp] theorem State.tookWrite_hostOps (s : State) : (s.tookWrite).hostOps = s.hostOps := rfl
@[simp] theorem State.tookWrite_writeAnswers (s : State) : (s.tookWrite).writeAnswers = s.writeAnswers.tail := rfl
@[simp] theorem State.tookWrite_readAnswers (s : State) : (s.tookWrite).readAnswers = s.readAnswers := rfl
@[simp] theorem State.tookWrite_draws (s : State) : (s.tookWrite).draws = s.draws + 1 := rfl
@[simp] theorem State.tookWrite_tpLog (s : State) : (s.tookWrite).tpLog = s.tpLog := rfl

@[simp] theorem State.tookRead_crc (s : State) : (s.tookRead).crc = s.crc := rfl
@[simp] theorem State.tookRead_crcWritten (s : State) : (s.tookRead).crcWritten = s.crcWritten := rfl
@[simp] theorem State.tookRead_out (s : State) : (s.tookRead).out = s.out := rfl
@[simp] theorem State.tookRead_inb (s : State) : (s.tookRead).inb = s.inb := rfl
@[simp] theorem State.tookRead_ph (s : State) : (s.tookRead).ph = s.ph := rfl
@[simp] theorem State.tookRead_outcome (s : State) : (s.tookRead).outcome = s.outcome := rfl
@[simp] theorem State.tookRead_session (s : State) : (s.tookRead).session = s.session := rfl
@[simp] theorem State.tookRead_hostOps (s : State) : (s.tookRead).hostOps = s.hostOps := rfl
@[simp] theorem State.tookRead_writeAnswers (s : State) : (s.tookRead).writeAnswers = s.writeAnswers := rfl
@[simp] theorem State.tookRead_readAnswers (s : State) : (s.tookRead).readAnswers = s.readAnswers.tail := rfl
@[simp] theorem State.tookRead_draws (s : State) : (s.tookRead).draws = s.draws + 1 := rfl
@[simp] theorem State.tookRead_tpLog (s : State) : (s.tookRead).tpLog = s.tpLog := rfl

@[simp] theorem State.pause_crc (s : State) (d : DelayMs) : (s.pause d).crc = s.crc := rfl
@[simp] theorem State.pause_crcWritten (s : State) (d : DelayMs) : (s.pause d).crcWritten = s.crcWritten := rfl
@[simp] theorem State.pause_out (s : State) (d : DelayMs) : (s.pause d).out = s.out := rfl
@[simp] theorem State.pause_inb (s : State) (d : DelayMs) : (s.pause d).inb = s.inb := rfl
@[simp] theorem State.pause_ph (s : State) (d : DelayMs) : (s.pause d).ph = s.ph := rfl
@[simp] theorem State.pause_outcome (s : State) (d : DelayMs) : (s.pause d).outcome = s.outcome := rfl
@[simp] theorem State.pause_session (s : State) (d : DelayMs) : (s.pause d).session = s.session := rfl
@[simp] theorem State.pause_hostOps (s : State) (d : DelayMs) : (s.pause d).hostOps = s.hostOps := rfl
@[simp] theorem State.pause_writeAnswers (s : State) (d : DelayMs) : (s.pause d).writeAnswers = s.writeAnswers := rfl
@[simp] theorem State.pause_readAnswers (s : State) (d : DelayMs) : (s.pause d).readAnswers = s.readAnswers := rfl
@[simp] theorem State.pause_draws (s : State) (d : DelayMs) : (s.pause d).draws = s.draws := rfl
@[simp] theorem State.pause_tpLog (s : State) (d : DelayMs) : (s.pause d).tpLog = s.tpLog ++ [.delay (delayMillis d)] := rfl

@[simp] theorem State.scrambleIn_crc (s : State) : (s.scrambleIn).crc = s.crc := rfl
@[simp] theorem State.scrambleIn_crcWritten (s : State) : (s.scrambleIn).crcWritten = s.crcWritten := rfl
@[simp] theorem State.scrambleIn_out (s : State) : (s.scrambleIn).out = s.out := rfl
@[simp] theorem State.scrambleIn_inb (s : State) : (s.scrambleIn).inb = Config.residualIn s.draws s.tpLog := rfl
@[simp] theorem State.scrambleIn_ph (s : State) : (s.scrambleIn).ph = s.ph := rfl
@[simp] theorem State.scrambleIn_outcome (s : State) : (s.scrambleIn).outcome = s.outcome := rfl
@[simp] theorem State.scrambleIn_session (s : State) : (s.scrambleIn).session = s.session := rfl
@[simp] theorem State.scrambleIn_hostOps (s : State) : (s.scrambleIn).hostOps = s.hostOps := rfl
@[simp] theorem State.scrambleIn_writeAnswers (s : State) : (s.scrambleIn).writeAnswers = s.writeAnswers := rfl
@[simp] theorem State.scrambleIn_readAnswers (s : State) : (s.scrambleIn).readAnswers = s.readAnswers := rfl
@[simp] theorem State.scrambleIn_draws (s : State) : (s.scrambleIn).draws = s.draws := rfl
@[simp] theorem State.scrambleIn_tpLog (s : State) : (s.scrambleIn).tpLog = s.tpLog := rfl

@[simp] theorem State.raise_crc (s : State) (e : OpError) : (s.raise e).crc = s.crc := rfl
@[simp] theorem State.raise_crcWritten (s : State) (e : OpError) : (s.raise e).crcWritten = s.crcWritten := rfl
@[simp] theorem State.raise_out (s : State) (e : OpError) : (s.raise e).out = s.out := rfl
@[simp] theorem State.raise_inb (s : State) (e : OpError) : (s.raise e).inb = s.inb := rfl
@[simp] theorem State.raise_ph (s : State) (e : OpError) : (s.raise e).ph = .idle := rfl
@[simp] theorem State.raise_outcome (s : State) (e : OpError) : (s.raise e).outcome = some (.error e) := rfl
@[simp] theorem State.raise_session (s : State) (e : OpError) : (s.raise e).session = s.session := rfl
@[simp] theorem State.raise_hostOps (s : State) (e : OpError) : (s.raise e).hostOps = s.hostOps := rfl
@[simp] theorem State.raise_writeAnswers (s : State) (e : OpError) : (s.raise e).writeAnswers = s.writeAnswers := rfl
@[simp] theorem State.raise_readAnswers (s : State) (e : OpError) : (s.raise e).readAnswers = s.readAnswers := rfl
@[simp] theorem State.raise_draws (s : State) (e : OpError) : (s.raise e).draws = s.draws := rfl
@[simp] theorem State.raise_tpLog (s : State) (e : OpError) : (s.raise e).tpLog = s.tpLog := rfl

@[simp] theorem State.complete_crc (s : State) (r : Option Value) : (s.complete r).crc = s.crc := rfl
@[simp] theorem State.complete_crcWritten (s : State) (r : Option Value) : (s.complete r).crcWritten = s.crcWritten := rfl
@[simp] theorem State.complete_out (s : State) (r : Option Value) : (s.complete r).out = s.out := rfl
@[simp] theorem State.complete_inb (s : State) (r : Option Value) : (s.complete r).inb = s.inb := rfl
@[simp] theorem State.complete_ph (s : State) (r : Option Value) : (s.complete r).ph = s.ph := rfl
@[simp] theorem State.complete_outcome (s : State) (r : Option Value) : (s.complete r).outcome = some (.ok r) := rfl
@[simp] theorem State.complete_session (s : State) (r : Option Value) : (s.complete r).session = s.session := rfl
@[simp] theorem State.complete_hostOps (s : State) (r : Option Value) : (s.complete r).hostOps = s.hostOps := rfl
@[simp] theorem State.complete_writeAnswers (s : State) (r : Option Value) : (s.complete r).writeAnswers = s.writeAnswers := rfl
@[simp] theorem State.complete_readAnswers (s : State) (r : Option Value) : (s.complete r).readAnswers = s.readAnswers := rfl
@[simp] theorem State.complete_draws (s : State) (r : Option Value) : (s.complete r).draws = s.draws := rfl
@[simp] theorem State.complete_tpLog (s : State) (r : Option Value) : (s.complete r).tpLog = s.tpLog := rfl

@[simp] theorem State.issueNext_crc (s : State) (w : HostWord) : (s.issueNext w).crc = s.crc := rfl
@[simp] theorem State.issueNext_crcWritten (s : State) (w : HostWord) : (s.issueNext w).crcWritten = s.crcWritten := rfl
@[simp] theorem State.issueNext_out (s : State) (w : HostWord) : (s.issueNext w).out = s.out := rfl
@[simp] theorem State.issueNext_inb (s : State) (w : HostWord) : (s.issueNext w).inb = s.inb := rfl
@[simp] theorem State.issueNext_ph (s : State) (w : HostWord) : (s.issueNext w).ph = s.ph := rfl
@[simp] theorem State.issueNext_outcome (s : State) (w : HostWord) : (s.issueNext w).outcome = s.outcome := rfl
@[simp] theorem State.issueNext_session (s : State) (w : HostWord) : (s.issueNext w).session = s.session := rfl
@[simp] theorem State.issueNext_hostOps (s : State) (w : HostWord) : (s.issueNext w).hostOps = w :: s.hostOps := rfl
@[simp] theorem State.issueNext_writeAnswers (s : State) (w : HostWord) : (s.issueNext w).writeAnswers = s.writeAnswers := rfl
@[simp] theorem State.issueNext_readAnswers (s : State) (w : HostWord) : (s.issueNext w).readAnswers = s.readAnswers := rfl
@[simp] theorem State.issueNext_draws (s : State) (w : HostWord) : (s.issueNext w).draws = s.draws := rfl
@[simp] theorem State.issueNext_tpLog (s : State) (w : HostWord) : (s.issueNext w).tpLog = s.tpLog := rfl

end Sys2Proof.Machine
end

