-- ==== Sys2Proof/Laws/Exchange.lean ====
section
/-! SUPPORT. What the transfers, the exchange and a primitive can do: one lemma per shared operation, in the terms of
Safety.lean. -/

namespace Sys2Proof.Machine

/-- Steps 1 and 2 leave the command frame in `OUT` and zeros in `IN`, whatever was there. -/
theorem prepare_eq (x : Exchange) (s : State) :
    prepare x s = { s with out := commandFrame x, inb := zeroFrame, ph := .populated } := rfl

/-- The write of a prepared exchange gets the answer the transport gives that frame. -/
theorem memWrite_prepared (x : Exchange) (s : State) :
    memWrite (prepare x s) =
      (writeAnswerTo s (commandFrame x),
        { s with
          out := commandFrame x
          inb := zeroFrame
          ph := .populated
          writeAnswers := s.writeAnswers.tail
          draws := s.draws + 1
          tpLog := s.tpLog ++ [writeEvent s (commandFrame x)] }) := by
  cases h : s.writeAnswers <;>
    simp [memWrite, prepare_eq, State.writeReply, State.logTp, State.tookWrite, writeAnswerTo, writeEvent,
      transferTimeoutMs, h]

/-- The state in which the reply of an exchange with frame `f` and delay `d`, begun in `s`, has just been taken. -/
def replyTaken (s : State) (f : Frame) (d : DelayMs) : State :=
  { s with
    out := f
    inb := zeroFrame
    ph := .waited
    writeAnswers := s.writeAnswers.tail
    readAnswers := s.readAnswers.tail
    draws := s.draws + 2
    tpLog := s.tpLog ++ exchangeEvents s f d }

/-- The exchange is: the write's answer, and unless it failed the read's answer on a state with all three events logged. -/
theorem exchange_eq (x : Exchange) (s : State) :
    exchange x s =
      if TransferFailed (writeAnswerTo s (commandFrame x)).st (writeAnswerTo s (commandFrame x)).n then
        .raised (transferError (writeAnswerTo s (commandFrame x)).st (writeAnswerTo s (commandFrame x)).desc
            (memWrite (prepare x s)).2) (memWrite (prepare x s)).2
      else afterRead x (readAnswerTo s (commandFrame x) x.delay) (replyTaken s (commandFrame x) x.delay) := by
  cases hd : x.delay <;> cases hr : s.readAnswers <;>
    simp [exchange, memWrite_prepared, afterWrite, memRead, State.setPhase, State.pause, State.logTp, State.tookRead,
      State.readReply, readAnswerTo, replyTaken, exchangeEvents, delayMillis, transferTimeoutMs, writeEvent, hd, hr]

/-- A failed write: the frame stays in `OUT`, `IN` is zero, one write and nothing else on the channel. -/
theorem runPrimitive_write_failed (x : Exchange) (ext : Frame → Option Value) (s : State)
    (h : TransferFailed (writeAnswerTo s (commandFrame x)).st (writeAnswerTo s (commandFrame x)).n) :
    runPrimitive x ext s =
      { s with
        out := commandFrame x
        inb := zeroFrame
        ph := .idle
        outcome := some (.error (transferError (writeAnswerTo s (commandFrame x)).st
          (writeAnswerTo s (commandFrame x)).desc (memWrite (prepare x s)).2))
        writeAnswers := s.writeAnswers.tail
        draws := s.draws + 1
        tpLog := s.tpLog ++ [writeEvent s (commandFrame x)] } := by
  simp only [runPrimitive, exchange_eq, if_pos h, finish, State.raise]
  simp [memWrite_prepared]

/-- A failed read: `IN` holds any bytes, and the whole exchange is on the channel. -/
theorem runPrimitive_read_failed (x : Exchange) (ext : Frame → Option Value) (s : State)
    (hw : ¬ TransferFailed (writeAnswerTo s (commandFrame x)).st (writeAnswerTo s (commandFrame x)).n)
    (hr : TransferFailed (readAnswerTo s (commandFrame x) x.delay).st (readAnswerTo s (commandFrame x) x.delay).n) :
    runPrimitive x ext s =
      ((replyTaken s (commandFrame x) x.delay).scrambleIn).raise
        (transferError (readAnswerTo s (commandFrame x) x.delay).st (readAnswerTo s (commandFrame x) x.delay).desc
          (replyTaken s (commandFrame x) x.delay)) := by
  simp only [runPrimitive, exchange_eq, if_neg hw, afterRead, if_pos hr, finish]

/-- The comparison on a state that holds the command frame and the reply. -/
theorem verifyEcho_mismatch {d : EchoDepth} {s : State} (h : ¬ EchoMatches d s.out s.inb) :
    verifyEcho d s = .raised .echoMismatch s := if_neg h

theorem verifyEcho_match {d : EchoDepth} {s : State} (h : EchoMatches d s.out s.inb) :
    verifyEcho d s = .verified (s.setPhase .verified) := if_pos h

/-- Both transfers succeed and some compared position differs. -/
theorem runPrimitive_echo_mismatch (x : Exchange) (ext : Frame → Option Value) (s : State)
    (hw : ¬ TransferFailed (writeAnswerTo s (commandFrame x)).st (writeAnswerTo s (commandFrame x)).n)
    (hr : ¬ TransferFailed (readAnswerTo s (commandFrame x) x.delay).st (readAnswerTo s (commandFrame x) x.delay).n)
    (he : ¬ EchoMatches x.depth (commandFrame x) (readAnswerTo s (commandFrame x) x.delay).data) :
    runPrimitive x ext s = afterExchange s (commandFrame x) x.delay (.error .echoMismatch) := by
  rw [runPrimitive, exchange_eq, if_neg hw, afterRead, if_neg hr, verifyEcho_mismatch he]
  rfl

/-- Both transfers succeed and every compared position agrees. -/
theorem runPrimitive_ok (x : Exchange) (ext : Frame → Option Value) (s : State)
    (hw : ¬ TransferFailed (writeAnswerTo s (commandFrame x)).st (writeAnswerTo s (commandFrame x)).n)
    (hr : ¬ TransferFailed (readAnswerTo s (commandFrame x) x.delay).st (readAnswerTo s (commandFrame x) x.delay).n)
    (he : EchoMatches x.depth (commandFrame x) (readAnswerTo s (commandFrame x) x.delay).data) :
    runPrimitive x ext s =
      afterExchange s (commandFrame x) x.delay (.ok (ext (readAnswerTo s (commandFrame x) x.delay).data)) := by
  rw [runPrimitive, exchange_eq, if_neg hw, afterRead, if_neg hr, verifyEcho_match he]
  rfl

/-- The error of a failed transfer is always a `TransportError`. -/
theorem transferError_kind (st : Int) (desc : String) (s : State) :
    ∃ code text, transferError st desc s = .transportError code text := by
  unfold transferError
  split
  · exact ⟨_, _, rfl⟩
  · exact ⟨_, _, rfl⟩

/-- The code and the text of a nonzero status pass on unchanged (R27). -/
theorem transferError_of_status {st : Int} (h : st ≠ 0) (desc : String) (s : State) :
    transferError st desc s = .transportError st desc := if_pos h

/-- Every primitive ends in one of the four ways of R74. -/
theorem runPrimitive_cases (x : Exchange) (ext : Frame → Option Value) (s : State) :
    (∃ code text, runPrimitive x ext s =
        { s with
          out := commandFrame x
          inb := zeroFrame
          ph := .idle
          outcome := some (.error (.transportError code text))
          writeAnswers := s.writeAnswers.tail
          draws := s.draws + 1
          tpLog := s.tpLog ++ [writeEvent s (commandFrame x)] }) ∨
      (∃ code text inb, runPrimitive x ext s =
        { afterExchange s (commandFrame x) x.delay (.error (.transportError code text)) with inb := inb }) ∨
      runPrimitive x ext s = afterExchange s (commandFrame x) x.delay (.error .echoMismatch) ∨
      runPrimitive x ext s =
        afterExchange s (commandFrame x) x.delay (.ok (ext (readAnswerTo s (commandFrame x) x.delay).data)) := by
  by_cases hw : TransferFailed (writeAnswerTo s (commandFrame x)).st (writeAnswerTo s (commandFrame x)).n
  · obtain ⟨c, t, e⟩ := transferError_kind (writeAnswerTo s (commandFrame x)).st
      (writeAnswerTo s (commandFrame x)).desc (memWrite (prepare x s)).2
    exact .inl ⟨c, t, by rw [runPrimitive_write_failed x ext s hw, e]⟩
  · by_cases hr : TransferFailed (readAnswerTo s (commandFrame x) x.delay).st
        (readAnswerTo s (commandFrame x) x.delay).n
    · obtain ⟨c, t, e⟩ := transferError_kind (readAnswerTo s (commandFrame x) x.delay).st
        (readAnswerTo s (commandFrame x) x.delay).desc (replyTaken s (commandFrame x) x.delay)
      exact .inr (.inl ⟨c, t, _, by rw [runPrimitive_read_failed x ext s hw hr, e]; rfl⟩)
    · by_cases he : EchoMatches x.depth (commandFrame x) (readAnswerTo s (commandFrame x) x.delay).data
      · exact .inr (.inr (.inr (runPrimitive_ok x ext s hw hr he)))
      · exact .inr (.inr (.inl (runPrimitive_echo_mismatch x ext s hw hr he)))

/-- The exchange and the extraction behind each primitive, and its row of the table of Safety.lean. -/
theorem exec_of_busUse {i : Instr} {u : BusUse} (h : busUse i = some u) :
    ∃ x ext, (∀ s, exec i s = .next (runPrimitive x ext s)) ∧ commandFrame x = u.frame ∧ x.delay = u.delay ∧
      x.depth = u.depth ∧ (∀ f, (ext f).isSome = readType i) := by
  cases i with
  | crcSet a => simp [busUse] at h
  | fold b => simp [busUse] at h
  | verify => simp [busUse] at h
  | reset => cases h; exact ⟨_, _, fun _ => rfl, rfl, rfl, rfl, fun _ => rfl⟩
  | writeBit bit =>
    cases h
    refine ⟨_, _, fun _ => rfl, ?_, rfl, rfl, fun _ => rfl⟩
    obtain rfl | rfl : bit = 0#1 ∨ bit = 1#1 := by revert bit; decide
    · rfl
    · rfl
  | writeByte b => cases h; exact ⟨_, _, fun _ => rfl, rfl, rfl, rfl, fun _ => rfl⟩
  | write4Bytes w => cases h; exact ⟨_, _, fun _ => rfl, rfl, rfl, rfl, fun _ => rfl⟩
  | read2BitPair => cases h; exact ⟨_, _, fun _ => rfl, rfl, rfl, rfl, fun _ => rfl⟩
  | readByte => cases h; exact ⟨_, _, fun _ => rfl, rfl, rfl, rfl, fun _ => rfl⟩
  | read4Bytes => cases h; exact ⟨_, _, fun _ => rfl, rfl, rfl, rfl, fun _ => rfl⟩

end Sys2Proof.Machine
end

