-- ==== Sys2Proof/Laws/PerInstr.lean ====
section
/-! SUPPORT. Per-instruction statements over the syntax: family `Encoding`. -/

/-- The word of an operation is canonical: an assigned selector and no stray operand bit (R37, R38). -/
def Sys2Proof.Laws.Encoding.Statement (i : Sys2Proof.Instr) : Prop :=
  Sys2Proof.HostWord.canonical (Sys2Proof.encode i) = true

namespace Sys2Proof.Laws.Encoding

/-- An assigned selector with an operand in its width makes a canonical word. -/
theorem canonical_hostWord (sel : Selector) (opd : BitVec 32)
    (hs : [0x0#4, 0x1#4, 0x2#4, 0x8#4, 0x9#4, 0xA#4, 0xB#4, 0xC#4, 0xD#4, 0xE#4].contains sel = true)
    (ho : opd.toNat < 2 ^ operandWidth sel) : HostWord.canonical (hostWord sel opd) = true := by
  have e1 : (hostWord sel opd).extractLsb' 32 4 = sel := sel_hostWord sel opd
  have e2 : (hostWord sel opd).extractLsb' 0 32 = opd := opd_hostWord sel opd
  simp only [HostWord.canonical, HostWord.selectorAssigned, HostWord.operandClean, e1, e2, hs, Bool.true_and,
    decide_eq_true_eq]
  exact ho

/-- A widened operand keeps its value. -/
theorem widened_lt {n : Nat} (x : BitVec n) : (x.setWidth 32).toNat < 2 ^ n :=
  lt_of_le_of_lt (by simpa using Nat.mod_le _ _) x.isLt

theorem crcSet (a : Byte) : Statement (.crcSet a) := canonical_hostWord 0x0 _ (by decide) (widened_lt a)
theorem fold (b : Byte) : Statement (.fold b) := canonical_hostWord 0x1 _ (by decide) (widened_lt b)
theorem verify : Statement .verify := by unfold Statement; decide
theorem reset : Statement .reset := by unfold Statement; decide
theorem writeBit (bit : BitVec 1) : Statement (.writeBit bit) := canonical_hostWord 0x9 _ (by decide) (widened_lt bit)
theorem writeByte (b : Byte) : Statement (.writeByte b) := canonical_hostWord 0xA _ (by decide) (widened_lt b)
theorem write4Bytes (word : Word) : Statement (.write4Bytes word) :=
  canonical_hostWord 0xB _ (by decide) word.isLt
theorem read2BitPair : Statement .read2BitPair := by unfold Statement; decide
theorem readByte : Statement .readByte := by unfold Statement; decide
theorem read4Bytes : Statement .read4Bytes := by unfold Statement; decide

end Sys2Proof.Laws.Encoding
end

