-- ==== Sys2Proof/Laws/Run.lean ====
section
/-! SUPPORT. What accepting an operation can answer, and the equations of a run. -/

namespace Sys2Proof.Machine

/-- With no primitive running, the block finds nothing issued, an operation, or a reserved word, as the first word decodes. -/
theorem nextIssued_cases {s : State} (h : s.ph = .idle) :
    (s.hostOps = [] ∧ nextIssued s = .nothing) ∨
      ∃ w rest, s.hostOps = w :: rest ∧
        ((∃ i, decode w = .ok i ∧ nextIssued s = .run i { s with hostOps := rest }) ∨
          ∃ e, decode w = .error e ∧ nextIssued s = .reserved (HostWord.sel w)) := by
  cases hops : s.hostOps with
  | nil => exact .inl ⟨rfl, by simp [nextIssued, hops]⟩
  | cons w rest =>
    refine .inr ⟨w, rest, rfl, ?_⟩
    cases hd : decode w with
    | ok i => exact .inl ⟨i, rfl, by simp [nextIssued, hops, h, hd]⟩
    | error e => exact .inr ⟨e, rfl, by simp [nextIssued, hops, h, hd]⟩

@[simp] theorem runSteps_zero (s : State) : runSteps 0 s = .next s := rfl

/-- A run goes on from the state its first step answers. -/
theorem runSteps_of_next {s t : State} (h : step s = .next t) (n : Nat) : runSteps (n + 1) s = runSteps n t := by
  simp [runSteps, h]

/-- A step that faults ends the run with that fault. -/
theorem runSteps_of_fault {s : State} {r : Fault} (h : step s = .fault r) (n : Nat) :
    runSteps (n + 1) s = .fault r := by
  simp [runSteps, h]

/-- A step that is refused ends the run with that refusal. -/
theorem runSteps_of_refused {s : State} {r : Refusal} (h : step s = .refused r) (n : Nat) :
    runSteps (n + 1) s = .refused r := by
  simp [runSteps, h]

@[simp] theorem finishedRun_next (t : State) : FinishedRun (.next t) ↔ t.hostOps = [] ∧ t.ph = .idle := Iff.rfl
@[simp] theorem finishedRun_fault (r : Fault) : ¬ FinishedRun (.fault r) := fun h => h
@[simp] theorem finishedRun_refused (r : Refusal) : ¬ FinishedRun (.refused r) := fun h => h
@[simp] theorem programFinished_some {α : Type} (a : α) (t : State) :
    ProgramFinished (some (a, t)) ↔ t.ph = .idle := Iff.rfl
@[simp] theorem programFinished_none {α : Type} : ¬ ProgramFinished (none : Ran α State) := fun h => h

end Sys2Proof.Machine
end

