-- ==== Sys2Proof/Tests/Slice0.lean ====
section
/-! SUPPORT. The model's own tests, with expected values from spec/95_test_vectors.md and the rules, and a witness for
each statement that has hypotheses. -/

namespace Sys2Proof.Machine.Tests

/-! ### Well-formedness: each check refuses an ill-formed term -/

theorem test_selector_3_is_reserved : HostWord.selectorAssigned 0x300000000 = false := by decide
theorem test_selector_F_is_reserved : HostWord.selectorAssigned 0xF00000000 = false := by decide
theorem test_stray_operand_bit_is_not_clean : HostWord.operandClean 0x900000002 = false := by decide
theorem test_reserved_word_is_not_canonical : HostWord.canonical 0x700000000 = false := by decide
theorem test_five_byte_payload_does_not_fit : payloadFits [0, 0, 0, 0, 0] = false := by decide
theorem test_payloads_fit :
    payloadFits (wordPayload 0x1E64FF28) = true ∧ payloadFits [fillR2, fillR2] = true := by decide

/-! ### Decoding, words written out from R37: selector nibble, then the 32-bit operand -/

theorem test_decode_crcSet : decode 0b000000000000000000000000000001011010#36 = .ok (.crcSet 0x5A) := by decide
theorem test_decode_fold : decode 0b000100000000000000000000000000101000#36 = .ok (.fold 0x28) := by decide
theorem test_decode_verify : decode 0b001000000000000000000000000000000000#36 = .ok .verify := by decide
theorem test_decode_reset : decode 0b100000000000000000000000000000000000#36 = .ok .reset := by decide
theorem test_decode_writeBit : decode 0b100100000000000000000000000000000001#36 = .ok (.writeBit 1) := by decide
theorem test_decode_writeByte : decode 0b101000000000000000000000000011001100#36 = .ok (.writeByte 0xCC) := by decide
theorem test_decode_write4Bytes :
    decode 0b101100011110011001001111111100101000#36 = .ok (.write4Bytes 0x1E64FF28) := by decide
theorem test_decode_read2BitPair : decode 0b110000000000000000000000000000000000#36 = .ok .read2BitPair := by decide
theorem test_decode_readByte : decode 0b110100000000000000000000000000000000#36 = .ok .readByte := by decide
theorem test_decode_read4Bytes : decode 0b111000000000000000000000000000000000#36 = .ok .read4Bytes := by decide
/-- R38: operand bits above the operand's width are ignored. -/
theorem test_decode_ignores_high_operand_bits : decode 0x1FFFFFF28 = .ok (.fold 0x28) := by decide
/-- R49, P7. -/
theorem test_decode_refuses_3 : decode 0x300000000 = .error (.reservedSelector 3) := by decide
theorem test_decode_refuses_too_wide : decodeTableWord 40 0x1800000000 = none := by decide
theorem test_table_word : decodeTableWord 40 0xA000000CC = some (.writeByte 0xCC) := by decide

/-! ### Unit CRC -/

/-- V1, V2, V6, V8. -/
theorem test_fold_vectors :
    foldStep8 0x00 0x28 = 0xE1 ∧ foldStep8 0xE1 0xFF = 0x82 ∧ foldStep8 0xFF 0x00 = 0x35 ∧
      foldStep8 0xA5 0x3C = 0x8D := by decide +kernel
/-- V9. -/
theorem test_rom_check_byte : foldBytes 0x00 [0x28, 0xFF, 0x64, 0x1E, 0x0F, 0x00, 0x00] = 0x34 := by decide +kernel
/-- V12. -/
theorem test_scratchpad_verifies :
    foldBytes 0x00 [0x91, 0x01, 0x4B, 0x46, 0x7F, 0xFF, 0x0F, 0x10, 0x25] = 0x00 := by decide +kernel
/-- V17. -/
theorem test_other_start_value :
    foldBytes 0x5A [0x91, 0x01, 0x4B, 0x46, 0x7F, 0xFF, 0x0F, 0x10] = 0x94 := by decide +kernel
/-- V19: the descending order gives another value than the published 0xA2. -/
theorem test_bit_orders :
    [0x02, 0x1C, 0xB8, 0x01, 0x00, 0x00, 0x00].foldl (foldStepIn .ascending) 0x00 = 0xA2 ∧
      [0x02, 0x1C, 0xB8, 0x01, 0x00, 0x00, 0x00].foldl (foldStepIn .descending) 0x00 = 0xC2 := by decide +kernel
/-- V20, P7. -/
theorem test_fold_before_crcSet : exec (.fold 0x00) State.reset = .fault .crcUnwritten := rfl
theorem test_verify_before_crcSet : exec .verify State.reset = .fault .crcUnwritten := rfl

/-- A session whose accumulator has been set. -/
def withCrc (v : Byte) : State := { State.reset with crc := v, crcWritten := true }

/-- P2, end: a nonzero accumulator is kept. -/
theorem test_verify_mismatch :
    exec .verify (withCrc 0xDC) = .next { withCrc 0xDC with outcome := some (.error .checksumMismatch) } := rfl
/-- V13: an item of zeros verifies. -/
theorem test_verify_ok : exec .verify (withCrc 0x00) = .next { withCrc 0x00 with outcome := some (.ok none) } := rfl
/-- R53: crcSet discards the running value. -/
theorem test_crcSet_discards :
    exec (.crcSet 0x00) (withCrc 0x55) = .next { withCrc 0x00 with outcome := some (.ok none) } := rfl
/-- R54: the result is the new accumulator. -/
theorem test_fold_result :
    exec (.fold 0xFF) (withCrc 0xFF) = .next { withCrc 0x00 with outcome := some (.ok (some (.crc 0x00))) } := rfl

/-! ### Primitives, with the printed default parameters -/

/-- A session in which the transport's next answers are given: status and count of the write, status, count and bytes of
the read. -/
def answered (ws : Int) (wn : Nat) (rs : Int) (rn : Nat) (reply : Frame) : State :=
  { State.reset with writeAnswers := [⟨ws, wn, "w"⟩], readAnswers := [⟨rs, rn, "r", reply⟩] }

/-- X1: the one frame whose every byte the source fixes, as the number of the opcode table. -/
theorem test_reset_frame : frameNumber (commandFrame (resetExchange Cfg.default)) = 0x0000000000004818 := by decide
/-- E1: a wrong echoed opcode; OUT and IN as R74 says. -/
theorem test_reset_echo_mismatch :
    let t := runPrimitive (resetExchange Cfg.default) noResult (answered 0 8 0 8 ⟨0x18, 0x49, 0, 0, 0, 0, 0, 0⟩)
    t.outcome = some (.error .echoMismatch) ∧ t.out = ⟨0x18, 0x48, 0, 0, 0, 0, 0, 0⟩ ∧
      t.inb = ⟨0x18, 0x49, 0, 0, 0, 0, 0, 0⟩ ∧ t.ph = .idle := by decide
/-- R77: the comparison is on whole bytes, 0x81 is no echo of 0x01. -/
theorem test_writeBit_whole_byte_echo :
    (runPrimitive (writeBitExchange Cfg.default 1) noResult
      (answered 0 8 0 8 ⟨0x18, 0x81, 0x81, 0, 0, 0, 0, 0⟩)).outcome = some (.error .echoMismatch) := by decide
/-- X2. -/
theorem test_writeBit_ok :
    (runPrimitive (writeBitExchange Cfg.default 1) noResult
      (answered 0 8 0 8 ⟨0x18, 0x81, 0x01, 0, 0, 0, 0, 0⟩)).outcome = some (.ok none) := by decide
/-- E4: depth 3 does not look at position 7; depth 8 does. -/
theorem test_writeByte_depth :
    (runPrimitive (writeByteExchange Cfg.default 0xCC) noResult
        (answered 0 8 0 8 ⟨0x18, 0x88, 0xCC, 0, 0, 0, 0, 0x01⟩)).outcome = some (.ok none) ∧
      (runPrimitive (writeByteExchange { Cfg.default with edWByte := ⟨6⟩ } 0xCC) noResult
        (answered 0 8 0 8 ⟨0x18, 0x88, 0xCC, 0, 0, 0, 0, 0x01⟩)).outcome = some (.error .echoMismatch) := by decide
/-- X5: the frame on the channel, the 2 ms delay and the read. -/
theorem test_write4Bytes_channel :
    (runPrimitive (write4BytesExchange Cfg.default 0x1E64FF28) noResult
      (answered 0 8 0 8 ⟨0x18, 0x84, 0x28, 0xFF, 0x64, 0x1E, 0, 0⟩)).tpLog =
      [.write 0 ⟨0x18, 0x84, 0x28, 0xFF, 0x64, 0x1E, 0, 0⟩ 5000, .delay 2, .read 0 5000] := by decide
/-- X10: high bits of the pair's bytes are dropped. -/
theorem test_read2BitPair_masks :
    (runPrimitive (read2BitPairExchange Cfg.default) (pairResult Cfg.default.r2Mask)
      (answered 0 8 0 8 ⟨0x18, 0x82, 0xFF, 0xFE, 0, 0, 0, 0⟩)).outcome = some (.ok (some (.pair 1 0))) := by decide
/-- E7: an all-zero reply is no pattern 0. -/
theorem test_read2BitPair_zero_reply :
    (runPrimitive (read2BitPairExchange Cfg.default) (pairResult Cfg.default.r2Mask)
      (answered 0 8 0 8 ⟨0, 0, 0, 0, 0, 0, 0, 0⟩)).outcome = some (.error .echoMismatch) := by decide
/-- X12. -/
theorem test_readByte_ignores_the_rest :
    (runPrimitive (readByteExchange Cfg.default) byteResult
      (answered 0 8 0 8 ⟨0x18, 0x88, 0xFF, 0x77, 0x77, 0x77, 0x77, 0x77⟩)).outcome = some (.ok (some (.byte 0xFF))) := by
  decide
/-- X14. -/
theorem test_read4Bytes_little_endian :
    (runPrimitive (read4BytesExchange Cfg.default) wordResult
      (answered 0 8 0 8 ⟨0x18, 0x84, 0x78, 0x56, 0x34, 0x12, 0xAA, 0xBB⟩)).outcome =
      some (.ok (some (.word 0x12345678))) := by decide
/-- E9: a nonzero status; no delay, no read, `IN` all zero. -/
theorem test_write_failure :
    let t := runPrimitive (writeByteExchange Cfg.default 0x44) noResult (answered (-7) 8 0 8 ⟨1, 2, 3, 4, 5, 6, 7, 8⟩)
    t.outcome = some (.error (.transportError (-7) "w")) ∧ t.inb = ⟨0, 0, 0, 0, 0, 0, 0, 0⟩ ∧
      t.tpLog = [.write 0 ⟨0x18, 0x88, 0x44, 0, 0, 0, 0, 0⟩ 5000] ∧ t.readAnswers.length = 1 := by decide
/-- E10: a failed read; both transfers were made. -/
theorem test_read_failure :
    let t := runPrimitive (readByteExchange Cfg.default) byteResult
      (answered 0 8 5 8 ⟨0x18, 0x88, 0x25, 0, 0, 0, 0, 0⟩)
    t.outcome = some (.error (.transportError 5 "r")) ∧ t.draws = 2 ∧ t.tpLog.length = 3 := by decide
/-- E11: a short read is a failure although the bytes look like a result; P6: so is a short write. -/
theorem test_short_transfers :
    (∃ c d, (runPrimitive (read4BytesExchange Cfg.default) wordResult
      (answered 0 8 0 4 ⟨0x18, 0x84, 1, 2, 3, 4, 0, 0⟩)).outcome = some (.error (.transportError c d))) ∧
    (∃ c d, (runPrimitive (resetExchange Cfg.default) noResult
      (answered 0 7 0 8 ⟨0x18, 0x48, 0, 0, 0, 0, 0, 0⟩)).outcome = some (.error (.transportError c d))) :=
  ⟨⟨_, _, rfl⟩, ⟨_, _, rfl⟩⟩

/-! ### Steps -/

theorem test_step_runs_crcSet :
    step (State.reset.withFetchWord 40 0x05A) =
      .next { State.reset with crc := 0x5A, crcWritten := true, outcome := some (.ok none) } := rfl
theorem test_step_runs_reset :
    (match step (State.reset.withFetchWord 40 0x800000000) with
      | .next _ => true
      | .fault _ => false
      | .refused _ => false) = true := by decide
theorem test_step_refuses_F :
    step (State.reset.withFetchWord 40 0xF00000000) = .refused (.reservedSelector 0xF) := rfl
theorem test_step_idle : step State.reset = .next State.reset := rfl

/-! ### Host programs and text -/

/-- S5, H2. -/
theorem test_temperature :
    convertTemperature 0x22 0x28 0x0191 = 401 / 16 ∧ convertTemperature 0x22 0x10 0x0191 = 401 / 2 ∧
      convertTemperature 0x22 0x28 0xFF5E = -81 / 8 ∧ convertTemperature 0x22 0x3B 0x0191 = 1000 := by
  simp [convertTemperature]
  norm_num
/-- T1. -/
theorem test_rom_text :
    romToText 0x3400000F1E64FF28 =
      ['3', '4', '0', '0', '0', '0', '0', 'F', '1', 'E', '6', '4', 'F', 'F', '2', '8'] := by decide
/-- T5, 15 digits. -/
theorem test_rom_text_too_short :
    romOfText ['3', '4', '0', '0', '0', '0', '0', 'F', '1', 'E', '6', '4', 'F', 'F', '2'] = .error .invalidAddress := by
  decide
/-- R90: at the depth of the last collision the direction is replayed from the prefix; deeper it is recorded. -/
theorem test_steer :
    steer 0x8 3 ⟨0, []⟩ 3 0 0 = some (1, ⟨0, []⟩) ∧ steer 0x8 3 ⟨8, []⟩ 4 0 0 = some (0, ⟨8, [(4, 8)]⟩) ∧
      steer 0x8 3 ⟨0, []⟩ 5 1 1 = none ∧ (steer 0 (-1) ⟨0, []⟩ 5 1 0).map Prod.fst = some 1 ∧
      (steer 0 (-1) ⟨0, []⟩ 5 0 1).map Prod.fst = some 0 := by decide

/-! ### A witness for each statement that has hypotheses -/

/-- An answered session in which the reply is the frame itself. -/
def mirrored (f : Frame) : State := answered 0 8 0 8 f

/-- A session with an accumulator set and operations to issue. -/
def issuing (ws : List HostWord) : State := { withCrc 0x00 with hostOps := ws }

theorem mirrored_both (f : Frame) (d : DelayMs) : BothSucceed (mirrored f) f d := ⟨rfl, rfl, rfl, rfl⟩

theorem witness_EncodeOfDecodeKeepsTheMaskedBits : decode 0x9FFFFFFFF = .ok (.writeBit 1) := by decide

theorem witness_StepRunsTheIssuedOperation :
    (issuing [0x100000028]).ph = .idle ∧ (issuing [0x100000028]).hostOps = [0x100000028#36] ∧
      decode 0x100000028 = .ok (.fold 0x28) := by decide

theorem witness_StepRunsThePlacedWord :
    State.reset.ph = .idle ∧ decodeTableWord 40 0xE00000000 = some .read4Bytes := by decide

theorem witness_StepWithoutARunnableOperation :
    State.reset.hostOps = [] ∧
      (issuing [0x300000000]).ph = .idle ∧ HostWord.sel 0x300000000 ∈ [0x3#4, 0x4#4, 0x5#4, 0x6#4, 0x7#4, 0xF#4] ∧
      HostWord.sel 0xFFFFFFFFF ∈ [0x3#4, 0x4#4, 0x5#4, 0x6#4, 0x7#4, 0xF#4] ∧
      ((issuing [0x200000000]).setPhase .written).ph ≠ .idle := by decide

theorem witness_FoldReplacesAndReturnsTheAccumulator : (withCrc 0xFF).crcWritten = true := rfl

theorem witness_VerifyPassesExactlyOnZero :
    (withCrc 0x00).crcWritten = true ∧ (withCrc 0x00).crc = 0x00 ∧ (withCrc 0x01).crcWritten = true ∧
      (withCrc 0x01).crc ≠ 0x00 := by decide

theorem witness_OnlyCrcSetAndFoldWriteTheAccumulator :
    (∃ t, exec .verify (withCrc 0x01) = .next t) ∧ (∀ a, Instr.verify ≠ .crcSet a) ∧ ∀ b, Instr.verify ≠ .fold b :=
  ⟨⟨_, rfl⟩, fun _ => nofun, fun _ => nofun⟩

theorem witness_OneChangedByteChangesTheAccumulator :
    (0x28#8 ≠ 0x29#8) ∧
      (∃ t, runOps (.crcSet 0x00 :: ([0xFF] ++ 0x28 :: [0x00]).map .fold) State.reset = .next t) ∧
      ∃ u, runOps (.crcSet 0x00 :: ([0xFF] ++ 0x29 :: [0x00]).map .fold) State.reset = .next u :=
  ⟨by decide, ⟨_, rfl⟩, ⟨_, rfl⟩⟩

theorem witness_ResetCompletes :
    let f : Frame := ⟨0x18, 0x48, 0x00, 0x00, 0x00, 0x00, 0x00, 0x00⟩
    BothSucceed (mirrored f) f Config.cfg.delayReset ∧
      Mirrors Config.cfg.edReset f (readAnswerTo (mirrored f) f Config.cfg.delayReset).data :=
  ⟨mirrored_both _ _, fun _ _ => rfl⟩

theorem witness_WriteBitCompletes :
    let f : Frame := ⟨0x18, Config.cfg.opcWBit, if (1 : BitVec 1) = 1 then 0x01 else 0x00, 0x00, 0x00, 0x00, 0x00, 0x00⟩
    BothSucceed (mirrored f) f Config.cfg.delayWBit ∧
      Mirrors Config.cfg.edWBit f (readAnswerTo (mirrored f) f Config.cfg.delayWBit).data :=
  ⟨mirrored_both _ _, fun _ _ => rfl⟩

theorem witness_WriteByteCompletes :
    let f : Frame := ⟨0x18, Config.cfg.opcWByte, 0xCC, 0x00, 0x00, 0x00, 0x00, 0x00⟩
    BothSucceed (mirrored f) f .ms1 ∧ Mirrors Config.cfg.edWByte f (readAnswerTo (mirrored f) f .ms1).data :=
  ⟨mirrored_both _ _, fun _ _ => rfl⟩

theorem witness_Write4BytesCompletes :
    let w : Word := 0x1E64FF28
    let f : Frame := ⟨0x18, Config.cfg.opcW4, w.extractLsb' 0 8, w.extractLsb' 8 8, w.extractLsb' 16 8,
      w.extractLsb' 24 8, 0x00, 0x00⟩
    BothSucceed (mirrored f) f .ms2 ∧ Mirrors Config.cfg.edW4 f (readAnswerTo (mirrored f) f .ms2).data :=
  ⟨mirrored_both _ _, fun _ _ => rfl⟩

theorem witness_Read2BitPairCompletes :
    let f : Frame := ⟨0x18, Config.cfg.opcR2, 0x01, 0x01, 0x00, 0x00, 0x00, 0x00⟩
    let s := mirrored ⟨0x18, Config.cfg.opcR2, 0xFF, 0xFE, 0x00, 0x00, 0x00, 0x00⟩
    let reply := (readAnswerTo s f Config.cfg.delayR2).data
    BothSucceed s f Config.cfg.delayR2 ∧ reply.b0 = 0x18 ∧ reply.b1 = Config.cfg.opcR2 :=
  ⟨⟨rfl, rfl, rfl, rfl⟩, rfl, rfl⟩

theorem witness_ReadByteCompletes :
    let f : Frame := ⟨0x18, Config.cfg.opcRByte, 0xFF, 0x00, 0x00, 0x00, 0x00, 0x00⟩
    let s := mirrored ⟨0x18, Config.cfg.opcRByte, 0x25, 0x77, 0x77, 0x77, 0x77, 0x77⟩
    let reply := (readAnswerTo s f .ms1).data
    BothSucceed s f .ms1 ∧ reply.b0 = 0x18 ∧ reply.b1 = Config.cfg.opcRByte :=
  ⟨⟨rfl, rfl, rfl, rfl⟩, rfl, rfl⟩

theorem witness_Read4BytesCompletes :
    let f : Frame := ⟨0x18, Config.cfg.opcR4, 0xFF, 0xFF, 0xFF, 0xFF, 0x00, 0x00⟩
    let s := mirrored ⟨0x18, Config.cfg.opcR4, 0x78, 0x56, 0x34, 0x12, 0xAA, 0xBB⟩
    let reply := (readAnswerTo s f .ms2).data
    BothSucceed s f .ms2 ∧ reply.b0 = 0x18 ∧ reply.b1 = Config.cfg.opcR4 :=
  ⟨⟨rfl, rfl, rfl, rfl⟩, rfl, rfl⟩

/-- The command frame of `readByte()`, and its row. -/
def readByteUse : BusUse := ⟨⟨0x18, Config.cfg.opcRByte, 0xFF, 0, 0, 0, 0, 0⟩, .ms1, ⟨0⟩⟩

theorem witness_PrimitivesAlwaysEndWithAnOutcome : busUse .readByte = some readByteUse := rfl

/-- A primitive with each of the transport's three kinds of answer: a count of 9 on the write, a nonzero status on the
write, a nonzero status on the read, and two good transfers. -/
theorem witness_TransportErrorExactlyOnAFailedTransfer :
    busUse .readByte = some readByteUse ∧
      (∃ t, exec .readByte (answered 0 9 0 8 readByteUse.frame) = .next t) ∧
      (writeAnswerTo (answered 0 9 0 8 readByteUse.frame) readByteUse.frame).n ≠ 8 ∧
      (writeAnswerTo (answered (-1) 8 0 8 readByteUse.frame) readByteUse.frame).st ≠ 0 ∧
      (writeAnswerTo (answered 0 8 1 0 readByteUse.frame) readByteUse.frame).st = 0 ∧
      (writeAnswerTo (answered 0 8 1 0 readByteUse.frame) readByteUse.frame).n = 8 ∧
      (readAnswerTo (answered 0 8 1 0 readByteUse.frame) readByteUse.frame .ms1).st ≠ 0 :=
  ⟨rfl, ⟨_, rfl⟩, by decide, by decide, rfl, rfl, by decide⟩

theorem witness_FailedWriteSkipsDelayAndRead :
    busUse .readByte = some readByteUse ∧
      ((writeAnswerTo (answered 0 7 0 8 readByteUse.frame) readByteUse.frame).st ≠ 0 ∨
        (writeAnswerTo (answered 0 7 0 8 readByteUse.frame) readByteUse.frame).n ≠ 8) :=
  ⟨rfl, .inr (by decide)⟩

theorem witness_FailedReadEndsWithoutComparison :
    busUse .readByte = some readByteUse ∧
      (writeAnswerTo (answered 0 8 0 4 readByteUse.frame) readByteUse.frame).st = 0 ∧
      (writeAnswerTo (answered 0 8 0 4 readByteUse.frame) readByteUse.frame).n = 8 ∧
      ((readAnswerTo (answered 0 8 0 4 readByteUse.frame) readByteUse.frame .ms1).st ≠ 0 ∨
        (readAnswerTo (answered 0 8 0 4 readByteUse.frame) readByteUse.frame .ms1).n ≠ 8) :=
  ⟨rfl, rfl, rfl, .inr (by decide)⟩

/-- The hypotheses shared by the statements about every outcome of a primitive. -/
theorem witness_PrimitiveAnswersANextState :
    busUse .readByte = some readByteUse ∧ ∃ t, exec .readByte (mirrored readByteUse.frame) = .next t :=
  ⟨rfl, _, rfl⟩

theorem witness_EchoMismatchExactlyOnADifferingReply :
    busUse .readByte = some readByteUse ∧
      (∃ t, exec .readByte (mirrored ⟨0x19, Config.cfg.opcRByte, 0x25, 0, 0, 0, 0, 0⟩) = .next t) ∧
      ¬ Mirrors readByteUse.depth readByteUse.frame
        (readAnswerTo (mirrored ⟨0x19, Config.cfg.opcRByte, 0x25, 0, 0, 0, 0, 0⟩) readByteUse.frame .ms1).data :=
  ⟨rfl, ⟨_, rfl⟩, fun h => absurd (h 0 (by decide)) (by show ¬ (0x19#8 = 0x18#8); decide)⟩

theorem witness_WrongHeaderNeverPasses :
    busUse .readByte = some readByteUse ∧
      (∃ t, exec .readByte (mirrored ⟨0x19, Config.cfg.opcRByte, 0x25, 0, 0, 0, 0, 0⟩) = .next t) ∧
      BothSucceed (mirrored ⟨0x19, Config.cfg.opcRByte, 0x25, 0, 0, 0, 0, 0⟩) readByteUse.frame .ms1 ∧
      (readAnswerTo (mirrored ⟨0x19, Config.cfg.opcRByte, 0x25, 0, 0, 0, 0, 0⟩) readByteUse.frame .ms1).data.b0 ≠
        readByteUse.frame.b0 :=
  ⟨rfl, ⟨_, rfl⟩, ⟨rfl, rfl, rfl, rfl⟩, by show ¬ (0x19#8 = 0x18#8); decide⟩

theorem witness_ReplyReplacesTheInboundBuffer :
    busUse .readByte = some readByteUse ∧ (∃ t, exec .readByte (mirrored readByteUse.frame) = .next t) ∧
      BothSucceed (mirrored readByteUse.frame) readByteUse.frame .ms1 :=
  ⟨rfl, ⟨_, rfl⟩, mirrored_both _ _⟩

theorem witness_WordsAreLittleEndianInTheBuffers :
    (∃ t, exec (.write4Bytes 0x12345678) State.reset = .next t) ∧
      ∃ t v, exec .read4Bytes (mirrored ⟨0x18, Config.cfg.opcR4, 0x78, 0x56, 0x34, 0x12, 0, 0⟩) = .next t ∧
        t.outcome = some (.ok (some (.word v))) := by
  refine ⟨⟨_, rfl⟩, _, 0x12345678, rfl, ?_⟩
  have h : EchoMatches edRead (commandFrame (read4BytesExchange Config.cfg))
      ⟨0x18, Config.cfg.opcR4, 0x78, 0x56, 0x34, 0x12, 0, 0⟩ := by
    intro k hk
    match k, hk with
    | 0, _ => rfl
    | 1, _ => rfl
  exact congrArg State.outcome
    (runPrimitive_ok (read4BytesExchange Config.cfg) wordResult
      (mirrored ⟨0x18, Config.cfg.opcR4, 0x78, 0x56, 0x34, 0x12, 0, 0⟩) (fun h => by rcases h with h | h <;> exact h rfl)
      (fun h => by rcases h with h | h <;> exact h rfl) h)

theorem witness_CrcOperationsNeverTouchTheChannel :
    busUse (.fold 0x28) = none ∧ (∃ t, exec (.fold 0x28) (withCrc 0x00) = .next t) ∧
      ∃ t, exec .verify (withCrc 0x01) = .next t ∧ t.outcome = some (.error .checksumMismatch) :=
  ⟨rfl, ⟨_, rfl⟩, _, rfl, rfl⟩

/-- Two sessions that differ in `CRC`, buffers and history and get the same answers: two good transfers, and a short read
with a zero code. -/
theorem witness_PrimitivesAreStateless :
    let s1 := mirrored readByteUse.frame
    let s2 := { mirrored readByteUse.frame with crc := 0x5A, crcWritten := true, out := ⟨1, 2, 3, 4, 5, 6, 7, 8⟩ }
    let short1 := answered 0 8 0 4 readByteUse.frame
    let short2 := { answered 0 8 0 4 readByteUse.frame with crc := 0x5A }
    busUse .readByte = some readByteUse ∧
      writeAnswerTo s2 readByteUse.frame = writeAnswerTo s1 readByteUse.frame ∧
      readAnswerTo s2 readByteUse.frame .ms1 = readAnswerTo s1 readByteUse.frame .ms1 ∧
      (writeAnswerTo s1 readByteUse.frame).n = 8 ∧ (readAnswerTo s1 readByteUse.frame .ms1).n = 8 ∧
      (∃ t1, exec .readByte s1 = .next t1) ∧ (∃ t2, exec .readByte s2 = .next t2) ∧
      writeAnswerTo short2 readByteUse.frame = writeAnswerTo short1 readByteUse.frame ∧
      readAnswerTo short2 readByteUse.frame .ms1 = readAnswerTo short1 readByteUse.frame .ms1 ∧
      (readAnswerTo short1 readByteUse.frame .ms1).st = 0 ∧ (readAnswerTo short1 readByteUse.frame .ms1).n = 4 ∧
      (∃ t1, exec .readByte short1 = .next t1) ∧ ∃ t2, exec .readByte short2 = .next t2 :=
  ⟨rfl, rfl, rfl, rfl, rfl, ⟨_, rfl⟩, ⟨_, rfl⟩, rfl, rfl, rfl, rfl, ⟨_, rfl⟩, _, rfl⟩

/-- Two sessions whose write fails alike and whose answers to a read would differ. -/
theorem witness_PrimitivesAreStateless_failed_write :
    let s1 := answered (-1) 8 0 8 readByteUse.frame
    let s2 := answered (-1) 8 5 0 ⟨0, 0, 0, 0, 0, 0, 0, 0⟩
    busUse .readByte = some readByteUse ∧
      writeAnswerTo s2 readByteUse.frame = writeAnswerTo s1 readByteUse.frame ∧
      (writeAnswerTo s1 readByteUse.frame).st ≠ 0 ∧
      readAnswerTo s2 readByteUse.frame .ms1 ≠ readAnswerTo s1 readByteUse.frame .ms1 ∧
      (∃ t1, exec .readByte s1 = .next t1) ∧ ∃ t2, exec .readByte s2 = .next t2 :=
  ⟨rfl, rfl, by decide, fun h => absurd (congrArg ReadAnswer.st h) (by decide), ⟨_, rfl⟩, _, rfl⟩

theorem witness_ErrorsLeaveTheBlockReady :
    ∃ t, exec .verify { withCrc 0x01 with hostOps := [0x000000000] } = .next t ∧
      t.outcome = some (.error .checksumMismatch) ∧ t.hostOps = [0x000000000#36] ∧
      decode 0x000000000 = .ok (.crcSet 0x00) :=
  ⟨_, rfl, rfl, rfl, by decide⟩

theorem witness_StepKeepsTheSessionInvariant :
    SessionInv (State.reset.issueNext 0x05A) ∧ ∃ t, step (State.reset.issueNext 0x05A) = .next t :=
  ⟨⟨rfl, trivial, fun _ => ⟨rfl, rfl⟩⟩, _, rfl⟩

theorem witness_InvariantSessionsStopOnlyForTheHostsMistakes :
    SessionInv (State.reset.issueNext 0x200000000) ∧
      step (State.reset.issueNext 0x200000000) = .fault .crcUnwritten ∧
      SessionInv (State.reset.issueNext 0xF00000000) ∧
      step (State.reset.issueNext 0xF00000000) = .refused (.reservedSelector 0xF) :=
  ⟨⟨rfl, trivial, fun _ => ⟨rfl, rfl⟩⟩, rfl, ⟨rfl, trivial, fun _ => ⟨rfl, rfl⟩⟩, rfl⟩

/-- A list that runs to its end, and one that does not: `verify` alone from session start. -/
theorem witness_RunsFinishExactlyOnLegalOperations :
    (issuing [0x000000000, 0x100000028, 0x200000000]).ph = .idle ∧
      FinishedRun (runSteps 3 (issuing [0x000000000, 0x100000028, 0x200000000])) ∧
      (State.reset.issueNext 0x200000000).ph = .idle ∧
      ¬ FinishedRun (runSteps 1 (State.reset.issueNext 0x200000000)) :=
  ⟨rfl, ⟨rfl, rfl⟩, rfl, fun h => h⟩

theorem witness_StepKeepsTheSessionRecord : ∃ t, step (State.reset.issueNext 0x05A) = .next t := ⟨_, rfl⟩

theorem witness_TemperatureConversionByFamily : (0x22#8 : Byte) ≠ 0x10 ∧ (0x3B#8 : Byte) ≠ 0x22 := by decide

end Sys2Proof.Machine.Tests
end

section
/-! PROOF. The transfers and the two buffers (spec/20_memory.md): what a primitive leaves in `OUT`, where its result comes from, and when its outcome is a `TransportError`. -/

namespace Sys2Proof.Machine

/-- `OUT` holds the command frame after every outcome (R66, R74). -/
@[simp] theorem runPrimitive_out (x : Exchange) (ext : Frame → Option Value) (s : State) :
    (runPrimitive x ext s).out = commandFrame x := by
  obtain ⟨_, _, e⟩ | ⟨_, _, _, e⟩ | e | e := runPrimitive_cases x ext s <;> rw [e] <;> rfl

/-- The result inside `Ok` is taken from the reply that stands in `IN` (R75, R84). -/
theorem runPrimitive_ok_result {x : Exchange} {ext : Frame → Option Value} {s : State} {o : Option Value}
    (h : (runPrimitive x ext s).outcome = some (.ok o)) : o = ext (runPrimitive x ext s).inb := by
  -- only the fourth of the four ways ends in `Ok`
  obtain ⟨_, _, e⟩ | ⟨_, _, _, e⟩ | e | e := runPrimitive_cases x ext s <;> rw [e] at h ⊢ <;> cases h
  rfl

/-- The four payload positions of `write4Bytes`, least significant byte first (R29). -/
theorem commandFrame_write4Bytes (c : Cfg) (w : Word) :
    commandFrame (write4BytesExchange c w) =
      ⟨magic, c.opcW4, w.extractLsb' 0 8, w.extractLsb' 8 8, w.extractLsb' 16 8, w.extractLsb' 24 8, 0x00, 0x00⟩ := rfl

/-- The outcome after a failed write. -/
theorem runPrimitive_outcome_write_failed {x : Exchange} {s : State} (ext : Frame → Option Value)
    (h : TransferFailed (writeAnswerTo s (commandFrame x)).st (writeAnswerTo s (commandFrame x)).n) :
    (runPrimitive x ext s).outcome = some (.error (transferError (writeAnswerTo s (commandFrame x)).st
      (writeAnswerTo s (commandFrame x)).desc (memWrite (prepare x s)).2)) := by
  rw [runPrimitive_write_failed x ext s h]

/-- The outcome after a good write and a failed read. -/
theorem runPrimitive_outcome_read_failed {x : Exchange} {s : State} (ext : Frame → Option Value)
    (hw : ¬ TransferFailed (writeAnswerTo s (commandFrame x)).st (writeAnswerTo s (commandFrame x)).n)
    (hr : TransferFailed (readAnswerTo s (commandFrame x) x.delay).st (readAnswerTo s (commandFrame x) x.delay).n) :
    (runPrimitive x ext s).outcome = some (.error (transferError (readAnswerTo s (commandFrame x) x.delay).st
      (readAnswerTo s (commandFrame x) x.delay).desc (replyTaken s (commandFrame x) x.delay))) := by
  rw [runPrimitive_read_failed x ext s hw hr, State.raise_outcome]

/-- After two good transfers the outcome is the echo comparison's, never a `TransportError` (R72). -/
theorem runPrimitive_outcome_of_transfers {x : Exchange} {s : State} (ext : Frame → Option Value)
    (hw : ¬ TransferFailed (writeAnswerTo s (commandFrame x)).st (writeAnswerTo s (commandFrame x)).n)
    (hr : ¬ TransferFailed (readAnswerTo s (commandFrame x) x.delay).st
      (readAnswerTo s (commandFrame x) x.delay).n) :
    (runPrimitive x ext s).outcome =
      some (if EchoMatches x.depth (commandFrame x) (readAnswerTo s (commandFrame x) x.delay).data then
        .ok (ext (readAnswerTo s (commandFrame x) x.delay).data) else .error .echoMismatch) := by
  by_cases he : EchoMatches x.depth (commandFrame x) (readAnswerTo s (commandFrame x) x.delay).data
  · rw [runPrimitive_ok x ext s hw hr he, if_pos he]; rfl
  · rw [runPrimitive_echo_mismatch x ext s hw hr he, if_neg he]; rfl

/-- A primitive ends with a `TransportError` exactly when one of its transfers fails (R27, R103). -/
theorem runPrimitive_transportError_iff (x : Exchange) (ext : Frame → Option Value) (s : State) :
    (∃ code text, (runPrimitive x ext s).outcome = some (.error (.transportError code text))) ↔
      TransferFailed (writeAnswerTo s (commandFrame x)).st (writeAnswerTo s (commandFrame x)).n ∨
        TransferFailed (readAnswerTo s (commandFrame x) x.delay).st
          (readAnswerTo s (commandFrame x) x.delay).n := by
  by_cases hw : TransferFailed (writeAnswerTo s (commandFrame x)).st (writeAnswerTo s (commandFrame x)).n
  · obtain ⟨code, text, e⟩ := transferError_kind (writeAnswerTo s (commandFrame x)).st
      (writeAnswerTo s (commandFrame x)).desc (memWrite (prepare x s)).2
    exact iff_of_true ⟨code, text, by rw [runPrimitive_outcome_write_failed ext hw, e]⟩ (.inl hw)
  by_cases hr : TransferFailed (readAnswerTo s (commandFrame x) x.delay).st
      (readAnswerTo s (commandFrame x) x.delay).n
  · obtain ⟨code, text, e⟩ := transferError_kind (readAnswerTo s (commandFrame x) x.delay).st
      (readAnswerTo s (commandFrame x) x.delay).desc (replyTaken s (commandFrame x) x.delay)
    exact iff_of_true ⟨code, text, by rw [runPrimitive_outcome_read_failed ext hw hr, e]⟩ (.inr hr)
  refine iff_of_false ?_ (not_or.mpr ⟨hw, hr⟩)
  rintro ⟨code, text, e⟩
  rw [runPrimitive_outcome_of_transfers ext hw hr] at e
  split at e <;> cases e

/-- A nonzero status of the write passes to the host unchanged, with its text (R27; log 13). -/
theorem runPrimitive_outcome_write_status {x : Exchange} {s : State} (ext : Frame → Option Value)
    (h : (writeAnswerTo s (commandFrame x)).st ≠ 0) :
    (runPrimitive x ext s).outcome = some (.error (.transportError (writeAnswerTo s (commandFrame x)).st
      (writeAnswerTo s (commandFrame x)).desc)) := by
  rw [runPrimitive_outcome_write_failed ext (.inl h), transferError_of_status h]

/-- After a good write, a nonzero status of the read passes to the host unchanged, with its text (R27; log 13). -/
theorem runPrimitive_outcome_read_status {x : Exchange} {s : State} (ext : Frame → Option Value)
    (hw : ¬ TransferFailed (writeAnswerTo s (commandFrame x)).st (writeAnswerTo s (commandFrame x)).n)
    (h : (readAnswerTo s (commandFrame x) x.delay).st ≠ 0) :
    (runPrimitive x ext s).outcome = some (.error (.transportError
      (readAnswerTo s (commandFrame x) x.delay).st (readAnswerTo s (commandFrame x) x.delay).desc)) := by
  rw [runPrimitive_outcome_read_failed ext hw (.inl h), transferError_of_status h]

/-- Settles O26: every primitive is one exchange, whose outcome is read off its two transfers. -/
theorem transportErrorExactlyOnAFailedTransfer : Obligations.TransportErrorExactlyOnAFailedTransfer := by
  rintro i ⟨f, d, e⟩ s t hi ht
  obtain ⟨x, ext, hx, rfl, rfl, -, -⟩ := exec_of_busUse hi
  rw [hx] at ht
  cases ht
  refine ⟨runPrimitive_transportError_iff x ext s, runPrimitive_outcome_write_status ext, ?_⟩
  intro hst hn hr
  exact runPrimitive_outcome_read_status ext (not_or.mpr ⟨not_not.mpr hst, not_not.mpr hn⟩) hr

/-- Settles O35: `OUT` is the command frame after every outcome, and the word of an `Ok` is taken from `IN`. -/
theorem wordsAreLittleEndianInTheBuffers : Obligations.WordsAreLittleEndianInTheBuffers := by
  constructor
  · intro w s t ht
    have ht : runPrimitive (write4BytesExchange Config.cfg w) noResult s = t := Host.Outcome.next.inj ht
    simp [← ht, commandFrame_write4Bytes]
  · intro s t v ht ho
    have ht : runPrimitive (read4BytesExchange Config.cfg) wordResult s = t := Host.Outcome.next.inj ht
    subst ht
    have hv : some (.word v) = wordResult _ := runPrimitive_ok_result ho
    exact Value.word.inj (Option.some.inj hv)

end Sys2Proof.Machine
end

section
/-! PROOF. The command frames (spec/30_encoding.md section 2). -/

namespace Sys2Proof.Machine

/-- Settles O33: every primitive is one exchange, whose command frame is its row of the table, and every way the exchange
can end leaves that frame in `OUT`. -/
theorem outIsTheCommandFrameWhateverTheOutcome : Obligations.OutIsTheCommandFrameWhateverTheOutcome := by
  intro i u s t hi ht
  obtain ⟨x, ext, hx, hf, -, -, -⟩ := exec_of_busUse hi
  have hrun : runPrimitive x ext s = t := Host.Outcome.next.inj ((hx s).symm.trans ht)
  rw [← hrun, runPrimitive_out, hf]

end Sys2Proof.Machine
end

section
/-! PROOF. Unit CRC (spec/40_crc.md): what its three operations answer, and the step function position by position. -/

namespace Sys2Proof.Machine

/-- Writing an accumulator that already counts as written replaces its value only (R10). -/
theorem State.setCrc_of_written {s : State} (h : s.crcWritten = true) (v : Byte) : s.setCrc v = { s with crc := v } := by
  rw [State.setCrc, ← h]

/-- What `crcSet` answers, in every state (R53). -/
theorem exec_crcSet (a : Byte) (s : State) : exec (.crcSet a) s = .next ((s.setCrc a).complete none) := rfl

/-- What `fold` answers once `CRC` is written (R54). -/
theorem exec_fold_of_written {s : State} (h : s.crcWritten = true) (b : Byte) :
    exec (.fold b) s = .next ((s.setCrc (foldStep8 s.crc b)).complete (some (.crc (foldStep8 s.crc b)))) := if_pos h

/-- What `verify` answers once `CRC` is written (R57). -/
theorem exec_verify_of_written {s : State} (h : s.crcWritten = true) :
    exec .verify s = .next (if ChecksumOk s.crc then s.complete none else s.raise .checksumMismatch) := if_pos h

/-- `verify` passes on a written zero accumulator (R57). -/
theorem exec_verify_of_zero {s : State} (h : s.crcWritten = true) (hz : s.crc = 0x00) :
    exec .verify s = .next (s.complete none) := by
  rw [exec_verify_of_written h, if_pos hz]

/-- `verify` raises on a written nonzero accumulator (R57). -/
theorem exec_verify_of_nonzero {s : State} (h : s.crcWritten = true) (hz : s.crc ≠ 0x00) :
    exec .verify s = .next (s.raise .checksumMismatch) := by
  rw [exec_verify_of_written h, if_neg hz]

/-- One bit position, the first law of section 2 (R58): the tap and the set bit together are 0x8C after the shift, and
the bit that `crcClrMask` clears is zero after the shift. -/
theorem foldBit_eq_shift_xor (acc : Byte) (t : Bool) :
    foldBit acc t = (acc >>> 1) ^^^ (if t then 0x8C else 0x00) := by
  refine BitVec.eq_of_getLsbD_eq fun i hi => ?_
  -- bit by bit: a shifted bit stays or flips as 0x8C says, and bit 7 of the shifted value is zero
  cases t with
  | false => interval_cases i <;> simp [foldBit, crcClrMask]
  | true => interval_cases i <;> simp [foldBit, crcTap, crcSetBit]

/-- The fold of a byte, in either order of its bits, is one shift and exclusive-or per bit position (R55, R56, R58). -/
theorem foldStepIn_eq_foldl_shift_xor (order : FoldOrder) (acc byte : Byte) :
    foldStepIn order acc byte =
      (FoldOrder.positions order).foldl
        (fun (a : Byte) (i : Nat) => (a >>> 1) ^^^ (if a.getLsbD 0 ^^ byte.getLsbD i then 0x8C else 0x00)) acc := by
  simp only [foldStepIn, foldBit_eq_shift_xor]

/-- Settles O46: the fold takes its positions in ascending order, and each is one shift and exclusive-or. -/
theorem foldStepIsEightPositionsAscending : Obligations.FoldStepIsEightPositionsAscending :=
  foldStepIn_eq_foldl_shift_xor .ascending

/-- Settles O10: `fold` runs on a written accumulator, so the write changes its value only. -/
theorem foldReplacesAndReturnsTheAccumulator : Obligations.FoldReplacesAndReturnsTheAccumulator := by
  intro b s h
  rw [exec_fold_of_written h, State.setCrc_of_written h]
  rfl

/-- Settles O11: the answer is read off `CRC`, which neither way of ending changes, so a second `verify` ends the same way. -/
theorem verifyPassesExactlyOnZero : Obligations.VerifyPassesExactlyOnZero := by
  intro s h
  refine ⟨exec_verify_of_zero h, exec_verify_of_nonzero h, fun t ht => ?_⟩
  by_cases hz : s.crc = 0x00
  · have hs : s.complete none = t := Host.Outcome.next.inj ((exec_verify_of_zero h hz).symm.trans ht)
    subst hs
    exact ⟨_, exec_verify_of_zero h hz, rfl⟩
  · have hs : s.raise .checksumMismatch = t :=
      Host.Outcome.next.inj ((exec_verify_of_nonzero h hz).symm.trans ht)
    subst hs
    exact ⟨_, exec_verify_of_nonzero h hz, rfl⟩

/-- Settles O9: `crcSet` asks nothing of the state. -/
theorem crcSetLoadsTheAccumulator : Obligations.CrcSetLoadsTheAccumulator := exec_crcSet

end Sys2Proof.Machine
end

section
/-! PROOF. The exchange (spec/41_codec_exchange.md sections 2 and 3): what each way of ending leaves on the channel and in `IN`. -/

namespace Sys2Proof.Machine

/-- Status zero and eight bytes is a good transfer (R27). -/
theorem not_transferFailed {st : Int} {n : Nat} (hst : st = 0) (hn : n = 8) : ¬ TransferFailed st n :=
  not_or.mpr ⟨not_not.mpr hst, not_not.mpr hn⟩

/-- A good write and a failed read: the state of a whole exchange with a `TransportError`, but for `IN` (R71, R74). -/
theorem runPrimitive_read_failed_afterExchange {x : Exchange} {s : State} (ext : Frame → Option Value)
    (hw : ¬ TransferFailed (writeAnswerTo s (commandFrame x)).st (writeAnswerTo s (commandFrame x)).n)
    (hr : TransferFailed (readAnswerTo s (commandFrame x) x.delay).st (readAnswerTo s (commandFrame x) x.delay).n) :
    ∃ code text anyIn, runPrimitive x ext s =
      { afterExchange s (commandFrame x) x.delay (.error (.transportError code text)) with inb := anyIn } := by
  obtain ⟨code, text, e⟩ := transferError_kind (readAnswerTo s (commandFrame x) x.delay).st
    (readAnswerTo s (commandFrame x) x.delay).desc (replyTaken s (commandFrame x) x.delay)
  refine ⟨code, text, Config.residualIn (s.draws + 2) (s.tpLog ++ exchangeEvents s (commandFrame x) x.delay), ?_⟩
  rw [runPrimitive_read_failed x ext s hw hr, e]
  rfl

/-- Two good transfers: the reply replaces `IN`, whichever way the comparison goes (R70). -/
theorem runPrimitive_inb_of_transfers {x : Exchange} {s : State} (ext : Frame → Option Value)
    (hw : ¬ TransferFailed (writeAnswerTo s (commandFrame x)).st (writeAnswerTo s (commandFrame x)).n)
    (hr : ¬ TransferFailed (readAnswerTo s (commandFrame x) x.delay).st
      (readAnswerTo s (commandFrame x) x.delay).n) :
    (runPrimitive x ext s).inb = (readAnswerTo s (commandFrame x) x.delay).data := by
  by_cases he : EchoMatches x.depth (commandFrame x) (readAnswerTo s (commandFrame x) x.delay).data
  · rw [runPrimitive_ok x ext s hw hr he]; rfl
  · rw [runPrimitive_echo_mismatch x ext s hw hr he]; rfl

/-- The channel has seen one write, or one write, one delay and one read (R73). -/
theorem runPrimitive_tpLog (x : Exchange) (ext : Frame → Option Value) (s : State) :
    (runPrimitive x ext s).tpLog = s.tpLog ++ [writeEvent s (commandFrame x)] ∨
      (runPrimitive x ext s).tpLog = s.tpLog ++ exchangeEvents s (commandFrame x) x.delay := by
  obtain ⟨_, _, e⟩ | ⟨_, _, _, e⟩ | e | e := runPrimitive_cases x ext s <;> rw [e]
  · exact .inl rfl
  · exact .inr rfl
  · exact .inr rfl
  · exact .inr rfl

/-- An exchange that ends `Ok` is a whole one on the channel (R73). -/
theorem runPrimitive_tpLog_of_ok {x : Exchange} {ext : Frame → Option Value} {s : State} {r : Option Value}
    (h : (runPrimitive x ext s).outcome = some (.ok r)) :
    (runPrimitive x ext s).tpLog = s.tpLog ++ exchangeEvents s (commandFrame x) x.delay := by
  -- only the fourth of the four ways ends in `Ok`
  obtain ⟨_, _, e⟩ | ⟨_, _, _, e⟩ | e | e := runPrimitive_cases x ext s <;> rw [e] at h ⊢ <;> cases h
  rfl

/-- Settles O28: a failed read comes before the comparison and the result; the error is a `TransportError` and `IN` is a
free value. -/
theorem failedReadEndsWithoutComparison : Obligations.FailedReadEndsWithoutComparison := by
  rintro i ⟨f, d, e⟩ s hi hst hn hr
  obtain ⟨x, ext, hx, rfl, rfl, -, -⟩ := exec_of_busUse hi
  obtain ⟨code, text, anyIn, hrun⟩ :=
    runPrimitive_read_failed_afterExchange ext (not_transferFailed hst hn) hr
  exact ⟨code, text, anyIn, by rw [hx, hrun]⟩

/-- Settles O32: every primitive is one exchange, and of its four ways to end only the failed write stops before the read. -/
theorem oneWriteAndAtMostOneRead : Obligations.OneWriteAndAtMostOneRead := by
  rintro i ⟨f, d, e⟩ s t hi ht
  obtain ⟨x, ext, hx, rfl, rfl, -, -⟩ := exec_of_busUse hi
  rw [hx] at ht
  cases ht
  exact ⟨runPrimitive_tpLog x ext s, fun ⟨_, h⟩ => runPrimitive_tpLog_of_ok h⟩

/-- Settles O34: after two good transfers the comparison decides the outcome, and `IN` is the reply either way. -/
theorem replyReplacesTheInboundBuffer : Obligations.ReplyReplacesTheInboundBuffer := by
  rintro i ⟨f, d, e⟩ s t hi ht ⟨hwst, hwn, hrst, hrn⟩
  obtain ⟨x, ext, hx, rfl, rfl, -, -⟩ := exec_of_busUse hi
  rw [hx] at ht
  cases ht
  exact runPrimitive_inb_of_transfers ext (not_transferFailed hwst hwn) (not_transferFailed hrst hrn)

end Sys2Proof.Machine
end

section
/-! PROOF. The bus primitives (spec/42_bus_primitives.md sections 2 and 3): the two bits of the pair, when there is a result, and what an outcome depends on. -/

namespace Sys2Proof.Machine

/-- Under the mask 0x01 a masked byte is the byte's low bit (R47). -/
theorem maskedBit_one_toNat (b : Byte) : (maskedBit 0x01 b).toNat = (b.getLsbD 0).toNat := by
  have hbit : maskedBit 0x01 b = (BitVec.ofBool (b.getLsbD 0)).setWidth 8 :=
    BitVec.and_one_eq_setWidth_ofBool_getLsbD
  rw [hbit]
  cases b.getLsbD 0 with
  | false => rfl
  | true => rfl

/-- Of two single bits the pair's number is their sum with weights 1 and 2 (R47, R80). -/
theorem pairNumber_of_bits {bit0 bit1 : Byte} {x y : Bool} (h0 : bit0.toNat = x.toNat) (h1 : bit1.toNat = y.toNat) :
    pairNumber bit0 bit1 = x.toNat + 2 * y.toNat := by
  rw [pairNumber, h0, h1]
  clear h0 h1
  decide +revert

/-- The outcome after two good transfers is read off the reply, so alike replies give equal outcomes (R83). -/
theorem runPrimitive_outcome_eq_of_transfers {x : Exchange} {s1 s2 : State} (ext : Frame → Option Value)
    (hww : writeAnswerTo s2 (commandFrame x) = writeAnswerTo s1 (commandFrame x))
    (hrr : readAnswerTo s2 (commandFrame x) x.delay = readAnswerTo s1 (commandFrame x) x.delay)
    (hw : ¬ TransferFailed (writeAnswerTo s1 (commandFrame x)).st (writeAnswerTo s1 (commandFrame x)).n)
    (hr : ¬ TransferFailed (readAnswerTo s1 (commandFrame x) x.delay).st
      (readAnswerTo s1 (commandFrame x) x.delay).n) :
    (runPrimitive x ext s1).outcome = (runPrimitive x ext s2).outcome := by
  rw [runPrimitive_outcome_of_transfers ext hw hr,
    runPrimitive_outcome_of_transfers ext (by rwa [hww]) (by rwa [hrr]), hrr]

/-- Answered alike, two runs of a primitive end equally or both in a `TransportError` (R83, R103). -/
theorem runPrimitive_outcome_eq_or_transportErrors {x : Exchange} {s1 s2 : State} (ext : Frame → Option Value)
    (hww : writeAnswerTo s2 (commandFrame x) = writeAnswerTo s1 (commandFrame x))
    (hrr : ¬ TransferFailed (writeAnswerTo s1 (commandFrame x)).st (writeAnswerTo s1 (commandFrame x)).n →
      readAnswerTo s2 (commandFrame x) x.delay = readAnswerTo s1 (commandFrame x) x.delay) :
    (runPrimitive x ext s1).outcome = (runPrimitive x ext s2).outcome ∨
      (∃ code text, (runPrimitive x ext s1).outcome = some (.error (.transportError code text))) ∧
        ∃ code text, (runPrimitive x ext s2).outcome = some (.error (.transportError code text)) := by
  rw [runPrimitive_transportError_iff, runPrimitive_transportError_iff, hww]
  by_cases hw : TransferFailed (writeAnswerTo s1 (commandFrame x)).st (writeAnswerTo s1 (commandFrame x)).n
  · exact .inr ⟨.inl hw, .inl hw⟩
  have hrr := hrr hw
  by_cases hr : TransferFailed (readAnswerTo s1 (commandFrame x) x.delay).st
      (readAnswerTo s1 (commandFrame x) x.delay).n
  · exact .inr ⟨.inr hr, .inr (by rwa [hrr])⟩
  · exact .inl (runPrimitive_outcome_eq_of_transfers ext hww hrr hw hr)

/-- Answered alike and no transfer short with status zero, two runs of a primitive end equally: a failed transfer's error
then is its own status and text (R27, R83; log 13). -/
theorem runPrimitive_outcome_eq_of_no_short_transfer {x : Exchange} {s1 s2 : State} (ext : Frame → Option Value)
    (hww : writeAnswerTo s2 (commandFrame x) = writeAnswerTo s1 (commandFrame x))
    (hrr : ¬ TransferFailed (writeAnswerTo s1 (commandFrame x)).st (writeAnswerTo s1 (commandFrame x)).n →
      readAnswerTo s2 (commandFrame x) x.delay = readAnswerTo s1 (commandFrame x) x.delay)
    (hwn : (writeAnswerTo s1 (commandFrame x)).st = 0 → (writeAnswerTo s1 (commandFrame x)).n = 8)
    (hrn : (writeAnswerTo s1 (commandFrame x)).st = 0 → (readAnswerTo s1 (commandFrame x) x.delay).st = 0 →
      (readAnswerTo s1 (commandFrame x) x.delay).n = 8) :
    (runPrimitive x ext s1).outcome = (runPrimitive x ext s2).outcome := by
  by_cases hwst : (writeAnswerTo s1 (commandFrame x)).st = 0
  case neg =>
    rw [runPrimitive_outcome_write_status ext hwst, runPrimitive_outcome_write_status ext (by rwa [hww]), hww]
  have hw := not_transferFailed hwst (hwn hwst)
  have hrr := hrr hw
  by_cases hrst : (readAnswerTo s1 (commandFrame x) x.delay).st = 0
  case neg =>
    rw [runPrimitive_outcome_read_status ext hw hrst,
      runPrimitive_outcome_read_status ext (by rwa [hww]) (by rwa [hrr]), hrr]
  exact runPrimitive_outcome_eq_of_transfers ext hww hrr hw (not_transferFailed hrst (hrn hwst hrst))

/-- Settles O31: the result inside an `Ok` is what the primitive extracts from `IN`, and it extracts something exactly
when it is read-type. -/
theorem resultExactlyWithOk : Obligations.ResultExactlyWithOk := by
  intro i u s t hi ht
  obtain ⟨x, ext, hx, -, -, -, hread⟩ := exec_of_busUse hi
  rw [hx] at ht
  cases ht
  constructor
  · rintro ⟨v, hv⟩
    refine ⟨?_, some v, hv⟩
    rw [← hread, ← runPrimitive_ok_result hv, Option.isSome_some]
  · rintro ⟨htype, r, hr⟩
    rw [← hread, ← runPrimitive_ok_result hr] at htype
    obtain ⟨v, rfl⟩ := Option.isSome_iff_exists.mp htype
    exact ⟨v, hr⟩

/-- Settles O38: every primitive is one exchange, whose frame is fixed by the operation and whose outcome is read off the
answers to its two transfers. -/
theorem primitivesAreStateless : Obligations.PrimitivesAreStateless := by
  rintro i ⟨f, d, e⟩ s1 s2 t1 t2 hi w r hww hrr ht1 ht2
  obtain ⟨x, ext, hx, rfl, rfl, -, -⟩ := exec_of_busUse hi
  rw [hx] at ht1 ht2
  cases ht1
  cases ht2
  have hrr : ¬ TransferFailed w.st w.n → readAnswerTo s2 (commandFrame x) x.delay = r := by
    intro hw
    obtain ⟨hst, hn⟩ := not_or.mp hw
    exact hrr (not_not.mp hst) (not_not.mp hn)
  exact ⟨by rw [runPrimitive_out, runPrimitive_out], runPrimitive_outcome_eq_or_transportErrors ext hww hrr,
    runPrimitive_outcome_eq_of_no_short_transfer ext hww hrr⟩

/-- Settles O47: the pair is the masked positions 2 and 3 of the reply, each a single bit under the mask 0x01. -/
theorem pairUnderMaskOneIsTheTwoLowBits : Obligations.PairUnderMaskOneIsTheTwoLowBits := fun reply =>
  have h0 := maskedBit_one_toNat reply.b2
  have h1 := maskedBit_one_toNat reply.b3
  ⟨_, _, rfl, h0, h1, pairNumber_of_bits h0 h1⟩

end Sys2Proof.Machine
end

section
/-! PROOF. The exceptions (spec/60_exceptions.md section 1): exactly when the outcome is an `EchoMismatch`. -/

namespace Sys2Proof.Machine

/-- Both transfers succeed exactly when neither fails (R27). -/
theorem bothSucceed_iff_not_transferFailed (s : State) (f : Frame) (d : DelayMs) :
    BothSucceed s f d ↔ ¬ TransferFailed (writeAnswerTo s f).st (writeAnswerTo s f).n ∧
      ¬ TransferFailed (readAnswerTo s f d).st (readAnswerTo s f d).n := by
  simp only [BothSucceed, TransferFailed, bufLen, not_or, not_not, and_assoc]

/-- A primitive ends with `EchoMismatch` exactly when both transfers succeed and the reply does not mirror the command
(R72, R104). -/
theorem runPrimitive_echoMismatch_iff (x : Exchange) (ext : Frame → Option Value) (s : State) :
    (runPrimitive x ext s).outcome = some (.error .echoMismatch) ↔
      BothSucceed s (commandFrame x) x.delay ∧
        ¬ Mirrors x.depth (commandFrame x) (readAnswerTo s (commandFrame x) x.delay).data := by
  rw [bothSucceed_iff_not_transferFailed]
  constructor
  · intro h
    -- a failed transfer would have given a `TransportError` instead
    have hgood : ¬ (TransferFailed (writeAnswerTo s (commandFrame x)).st (writeAnswerTo s (commandFrame x)).n ∨
        TransferFailed (readAnswerTo s (commandFrame x) x.delay).st
          (readAnswerTo s (commandFrame x) x.delay).n) := by
      rw [← runPrimitive_transportError_iff x ext s, h]
      rintro ⟨_, _, e⟩
      cases e
    obtain ⟨hw, hr⟩ := not_or.mp hgood
    refine ⟨⟨hw, hr⟩, fun hm => ?_⟩
    rw [runPrimitive_ok x ext s hw hr hm] at h
    cases h
  · rintro ⟨⟨hw, hr⟩, hm⟩
    rw [runPrimitive_echo_mismatch x ext s hw hr hm]
    rfl

/-- A primitive that ends with `EchoMismatch` leaves the state of a whole exchange (R74). -/
theorem runPrimitive_eq_of_echoMismatch {x : Exchange} {ext : Frame → Option Value} {s : State}
    (h : (runPrimitive x ext s).outcome = some (.error .echoMismatch)) :
    runPrimitive x ext s = afterExchange s (commandFrame x) x.delay (.error .echoMismatch) := by
  obtain ⟨hboth, hm⟩ := (runPrimitive_echoMismatch_iff x ext s).mp h
  obtain ⟨hw, hr⟩ := (bothSucceed_iff_not_transferFailed _ _ _).mp hboth
  exact runPrimitive_echo_mismatch x ext s hw hr hm

/-- Settles O29: every primitive is one exchange, which compares the reply only after two good transfers, with the
reply in `IN` by then. -/
theorem echoMismatchExactlyOnADifferingReply : Obligations.EchoMismatchExactlyOnADifferingReply := by
  rintro i ⟨f, d, e⟩ s t hi ht
  obtain ⟨x, ext, hx, rfl, rfl, rfl, -⟩ := exec_of_busUse hi
  rw [hx] at ht
  cases ht
  exact ⟨runPrimitive_echoMismatch_iff x ext s, runPrimitive_eq_of_echoMismatch⟩

end Sys2Proof.Machine
end

section
/-! PROOF. The end of a run (spec/70_reset_and_hazards.md section 3): when an operation completes, what it leaves for the
next one, and what that makes of a list of operations and of the host programs. -/

namespace Sys2Proof.Machine

/-- The operations that read `CRC` (R54, R57). -/
def ReadsCrc (i : Instr) : Prop := (∃ b, i = .fold b) ∨ i = .verify

theorem not_readsCrc_crcSet (a : Byte) : ¬ ReadsCrc (.crcSet a) := by
  rintro (⟨_, h⟩ | h) <;> cases h

theorem not_readsCrc_of_busUse {i : Instr} (hi : (busUse i).isSome) : ¬ ReadsCrc i := by
  rintro (⟨_, rfl⟩ | rfl) <;> cases hi

/-- What a completed operation leaves, as far as the next one depends on it (R10, R16, R110, R130). -/
structure Completed (i : Instr) (s t : State) : Prop where
  outcome : ∃ o, t.outcome = some o
  ph : s.ph = .idle ∨ (busUse i).isSome → t.ph = .idle
  hostOps : t.hostOps = s.hostOps
  crcWritten : t.crcWritten = true ↔ s.crcWritten = true ∨ ∃ a, i = .crcSet a

/-- A primitive completes with `PH` idle, from every state and whatever the transport answers. -/
theorem exec_completes_of_busUse {i : Instr} {u : BusUse} (h : busUse i = some u) (s : State) :
    ∃ t, exec i s = .next t ∧ Completed i s t := by
  obtain ⟨x, ext, hx, -⟩ := exec_of_busUse h
  have hset : ¬ ∃ a, i = .crcSet a := by rintro ⟨a, rfl⟩; cases h
  refine ⟨_, hx s, ?_⟩
  obtain ⟨_, _, e⟩ | ⟨_, _, _, e⟩ | e | e := runPrimitive_cases x ext s <;> rw [e] <;>
    exact ⟨⟨_, rfl⟩, fun _ => rfl, rfl, (or_iff_left hset).symm⟩

/-- An operation completes unless it reads an unwritten `CRC` (R10, R113). -/
theorem exec_completes {i : Instr} {s : State} (h : ReadsCrc i → s.crcWritten = true) :
    ∃ t, exec i s = .next t ∧ Completed i s t := by
  cases i with
  | crcSet a =>
    exact ⟨_, exec_crcSet a s, ⟨_, rfl⟩, fun hp => hp.elim id nofun, rfl, iff_of_true rfl (.inr ⟨a, rfl⟩)⟩
  | fold b =>
    have hw := h (.inl ⟨b, rfl⟩)
    exact ⟨_, exec_fold_of_written hw b, ⟨_, rfl⟩, fun hp => hp.elim id nofun, rfl, iff_of_true rfl (.inl hw)⟩
  | verify =>
    have hw := h (.inr rfl)
    by_cases hz : s.crc = 0x00
    · exact ⟨_, exec_verify_of_zero hw hz, ⟨_, rfl⟩, fun hp => hp.elim id nofun, rfl, iff_of_true hw (.inl hw)⟩
    · exact ⟨_, exec_verify_of_nonzero hw hz, ⟨_, rfl⟩, fun _ => rfl, rfl, iff_of_true hw (.inl hw)⟩
  | _ => exact exec_completes_of_busUse rfl s

/-- Reading an unwritten `CRC` is the model fault (R10, R113; log 16). -/
theorem exec_of_unwritten {i : Instr} {s : State} (hi : ReadsCrc i) (h : ¬ s.crcWritten = true) :
    exec i s = .fault .crcUnwritten := by
  obtain ⟨b, rfl⟩ | rfl := hi
  · exact if_neg h
  · exact if_neg h

/-! ### A list of operations -/

/-- A step from rest runs the first word's operation, with one operation less to issue. -/
theorem step_of_decode_ok {s : State} {w : HostWord} {ws : List HostWord} {i : Instr} (hops : s.hostOps = w :: ws)
    (hph : s.ph = .idle) (hd : decode w = .ok i) : step s = exec i { s with hostOps := ws } := by
  simp [step, nextIssued, hops, hph, hd]

/-- A step from rest refuses a word that is no operation (R49). -/
theorem step_of_decode_error {s : State} {w : HostWord} {ws : List HostWord} {e : DecodeError}
    (hops : s.hostOps = w :: ws) (hph : s.ph = .idle) (hd : decode w = .error e) :
    step s = .refused (.reservedSelector (HostWord.sel w)) := by
  simp [step, nextIssued, hops, hph, hd]

/-- The word `w`, issued after the words `before`, is an operation, and finds `CRC` written if it reads it. -/
def LegalAt (written : Prop) (before : List HostWord) (w : HostWord) : Prop :=
  ∃ i, decode w = .ok i ∧ (ReadsCrc i → written ∨ ∃ v ∈ before, ∃ a, decode v = .ok (.crcSet a))

/-- Every word of the list is legal where it stands. -/
def LegalOps (written : Prop) (ws : List HostWord) : Prop :=
  ∀ before w after, ws = before ++ w :: after → LegalAt written before w

theorem legalOps_nil (written : Prop) : LegalOps written [] := by
  intro before w after h
  simp at h

theorem legalAt_nil_iff {written : Prop} {w : HostWord} {i : Instr} (hd : decode w = .ok i) :
    LegalAt written [] w ↔ (ReadsCrc i → written) := by
  simp [LegalAt, hd]

/-- The operation that goes first counts as what it leaves of `CRC`. -/
theorem legalAt_cons_iff {written : Prop} {w v : HostWord} {i : Instr} {before : List HostWord}
    (hd : decode w = .ok i) :
    LegalAt written (w :: before) v ↔ LegalAt (written ∨ ∃ a, i = .crcSet a) before v := by
  simp [LegalAt, hd, or_assoc]

/-- A list is legal when its first word is and the rest is legal after it. -/
theorem legalOps_cons_iff {written : Prop} {w : HostWord} {ws : List HostWord} {i : Instr} (hd : decode w = .ok i) :
    LegalOps written (w :: ws) ↔ (ReadsCrc i → written) ∧ LegalOps (written ∨ ∃ a, i = .crcSet a) ws := by
  constructor
  · intro h
    refine ⟨(legalAt_nil_iff hd).mp (h [] w ws rfl), fun before v after e => ?_⟩
    exact (legalAt_cons_iff hd).mp (h (w :: before) v after (congrArg (w :: ·) e))
  · rintro ⟨hw, hws⟩ before v after e
    obtain ⟨rfl, e⟩ | ⟨before', rfl, e⟩ := List.cons_eq_append_iff.mp e
    · obtain ⟨rfl, -⟩ := List.cons.inj e
      exact (legalAt_nil_iff hd).mpr hw
    · exact (legalAt_cons_iff hd).mpr (hws before' v after (List.cons.inj e).2)

/-- A list that begins with no operation is not legal. -/
theorem not_legalOps_of_decode_error {written : Prop} {w : HostWord} {ws : List HostWord} {e : DecodeError}
    (hd : decode w = .error e) : ¬ LegalOps written (w :: ws) := by
  intro h
  obtain ⟨i, hi, -⟩ := h [] w ws rfl
  cases hd.symm.trans hi

/-- From rest, the run of a list finishes exactly when the list is legal: each completed operation leaves the block at
rest with the rest of the list, and the first illegal one stops it. -/
theorem finishedRun_iff_legalOps {ws : List HostWord} {s : State} (hops : s.hostOps = ws) (hph : s.ph = .idle) :
    FinishedRun (runSteps ws.length s) ↔ LegalOps (s.crcWritten = true) ws := by
  induction ws generalizing s with
  | nil => exact iff_of_true ⟨hops, hph⟩ (legalOps_nil _)
  | cons w ws ih =>
    rw [List.length_cons]
    cases hd : decode w with
    | error e =>
      rw [runSteps_of_refused (step_of_decode_error hops hph hd)]
      exact iff_of_false (finishedRun_refused _) (not_legalOps_of_decode_error hd)
    | ok i =>
      rw [legalOps_cons_iff hd]
      have hstep := step_of_decode_ok hops hph hd
      by_cases hlegal : ReadsCrc i → s.crcWritten = true
      · obtain ⟨t, ht, hc⟩ := exec_completes (s := { s with hostOps := ws }) hlegal
        rw [runSteps_of_next (hstep.trans ht), ih hc.hostOps (hc.ph (.inl hph)), hc.crcWritten,
          and_iff_right hlegal]
      · obtain ⟨hreads, hw⟩ := Classical.not_imp.mp hlegal
        rw [runSteps_of_fault (hstep.trans (exec_of_unwritten hreads hw))]
        exact iff_of_false (finishedRun_fault _) fun h => hlegal h.1

/-- Settles O48: by induction on the host's list. -/
theorem runsFinishExactlyOnLegalOperations : Obligations.RunsFinishExactlyOnLegalOperations :=
  fun _ hph => finishedRun_iff_legalOps rfl hph

/-! ### The host programs -/

/-- A finished program has answered, with `PH` idle. -/
theorem ProgramFinished.exists {α : Type} {r : Ran α State} (h : ProgramFinished r) :
    ∃ a t, r = some (a, t) ∧ t.ph = .idle := by
  cases r with
  | none => exact absurd h programFinished_none
  | some p => exact ⟨p.1, p.2, rfl, h⟩

/-- An operation that completes gives the host its outcome. -/
theorem blockIssue_completes {i : Instr} {s : State} (h : ReadsCrc i → s.crcWritten = true) :
    ∃ o t, blockIssue i s = some (o, t) ∧ Completed i s t := by
  obtain ⟨t, ht, hc⟩ := exec_completes h
  obtain ⟨o, ho⟩ := hc.outcome
  exact ⟨o, t, by simp [blockIssue, ht, ho], hc⟩

/-- A primitive answers the host with `PH` idle, from every state. -/
theorem blockIssue_of_busUse {i : Instr} (hi : (busUse i).isSome) (s : State) :
    ∃ o t, blockIssue i s = some (o, t) ∧ t.ph = .idle := by
  obtain ⟨o, t, e, hc⟩ := blockIssue_completes (s := s) fun h => absurd h (not_readsCrc_of_busUse hi)
  exact ⟨o, t, e, hc.ph (.inr hi)⟩

/-- Only what follows `Ok` is left to show: an error outcome fails the attempt with `PH` idle (R88, R99). -/
theorem onOk_finished {α : Type} {i : Instr} {s : State} {k : Option Value → State → Ran (Option α) State}
    (h : ReadsCrc i → s.crcWritten = true) (hph : s.ph = .idle ∨ (busUse i).isSome)
    (hk : ∀ r t, Completed i s t → t.ph = .idle → ProgramFinished (k r t)) :
    ProgramFinished (onOk blockIssue i s k) := by
  obtain ⟨o, t, e, hc⟩ := blockIssue_completes h
  rw [onOk, e]
  cases o with
  | ok r => exact hk r t hc (hc.ph hph)
  | error err => exact hc.ph hph

/-- The case of a primitive, which asks nothing of the state. -/
theorem onOk_primitive_finished {α : Type} {i : Instr} {s : State} {k : Option Value → State → Ran (Option α) State}
    (hi : (busUse i).isSome) (hk : ∀ r t, t.ph = .idle → ProgramFinished (k r t)) :
    ProgramFinished (onOk blockIssue i s k) :=
  onOk_finished (fun h => absurd h (not_readsCrc_of_busUse hi)) (.inr hi) fun r t _ => hk r t

theorem onPair_finished {α : Type} {s : State} {k : Byte → Byte → State → Ran (Option α) State}
    (hk : ∀ x y t, t.ph = .idle → ProgramFinished (k x y t)) : ProgramFinished (onPair blockIssue s k) := by
  obtain ⟨o, t, e, ht⟩ := blockIssue_of_busUse (i := .read2BitPair) rfl s
  rw [onPair, e]
  split
  case h_1 h => cases h
  case h_2 h => cases h; exact hk _ _ _ ht
  case h_3 h => cases h; exact ht

theorem onByte_finished {α : Type} {s : State} {k : Byte → State → Ran (Option α) State}
    (hk : ∀ b t, t.ph = .idle → ProgramFinished (k b t)) : ProgramFinished (onByte blockIssue s k) := by
  obtain ⟨o, t, e, ht⟩ := blockIssue_of_busUse (i := .readByte) rfl s
  rw [onByte, e]
  split
  case h_1 h => cases h
  case h_2 h => cases h; exact hk _ _ ht
  case h_3 h => cases h; exact ht

theorem onWord_finished {α : Type} {s : State} {k : Word → State → Ran (Option α) State}
    (hk : ∀ w t, t.ph = .idle → ProgramFinished (k w t)) : ProgramFinished (onWord blockIssue s k) := by
  obtain ⟨o, t, e, ht⟩ := blockIssue_of_busUse (i := .read4Bytes) rfl s
  rw [onWord, e]
  split
  case h_1 h => cases h
  case h_2 h => cases h; exact hk _ _ ht
  case h_3 h => cases h; exact ht

/-- Every fold keeps `CRC` written for the next operation. -/
theorem foldAll_finished {α : Type} {bytes : List Byte} {s : State} {k : State → Ran (Option α) State}
    (hph : s.ph = .idle) (hw : s.crcWritten = true)
    (hk : ∀ t, t.ph = .idle → t.crcWritten = true → ProgramFinished (k t)) :
    ProgramFinished (foldAll blockIssue bytes s k) := by
  induction bytes generalizing s with
  | nil => exact hk s hph hw
  | cons b bs ih =>
    exact onOk_finished (fun _ => hw) (.inl hph) fun _ t hc ht => ih ht (hc.crcWritten.mpr (.inl hw))

/-- A check never stops the block, since it begins with `crcSet` (R62). -/
theorem checkItem_finished {α : Type} {c : Cfg} {bytes : List Byte} {s : State} {k : State → Ran (Option α) State}
    (hph : s.ph = .idle) (hk : ∀ t, t.ph = .idle → ProgramFinished (k t)) :
    ProgramFinished (checkItem blockIssue c bytes s k) := by
  refine onOk_finished (fun h => absurd h (not_readsCrc_crcSet _)) (.inl hph) fun _ t hc ht => ?_
  refine foldAll_finished ht (hc.crcWritten.mpr (.inr ⟨_, rfl⟩)) fun u hu hw => ?_
  exact onOk_finished (fun _ => hw) (.inl hu) fun _ v _ hv => hk v hv

/-- A row of attempts finishes when every attempt does; only an empty row needs the block at rest before it. -/
theorem attempts_finished {α : Type} {attempt : State → Ran (Option α) State}
    (h : ∀ s, ProgramFinished (attempt s)) {n : Nat} {s : State} (hs : n = 0 → s.ph = .idle) :
    ProgramFinished (attempts n attempt s) := by
  induction n generalizing s with
  | zero => exact hs rfl
  | succ n ih =>
    obtain ⟨a, t, e, ht⟩ := (h s).exists
    rw [attempts, e]
    cases a with
    | none => exact ih fun _ => ht
    | some a => exact ht

theorem walkBits_finished (romPrefix : Rom) (depth : Int) {is : List Nat} {p : Pass} {s : State} (hph : s.ph = .idle) :
    ProgramFinished (walkBits blockIssue romPrefix depth is p s) := by
  induction is generalizing p s with
  | nil => exact hph
  | cons i is ih =>
    refine onPair_finished fun bit0 bit1 t ht => ?_
    split
    · exact ht
    · exact onOk_primitive_finished rfl fun _ _ hu => ih hu

theorem searchAttempt_finished (c : Cfg) (romPrefix : Rom) (depth : Int) (s : State) :
    ProgramFinished (searchAttempt blockIssue c romPrefix depth s) := by
  refine onOk_primitive_finished rfl fun _ t _ => ?_
  refine onOk_primitive_finished rfl fun _ u hu => ?_
  obtain ⟨a, v, e, hv⟩ :=
    (walkBits_finished romPrefix depth (is := List.range romBits) (p := { rom := 0, collisions := [] }) hu).exists
  rw [e]
  cases a with
  | none => exact hv
  | some p =>
    dsimp only
    split
    · exact hv
    · exact checkItem_finished hv fun w hw => hw

/-- An invocation of the search finishes, by induction on the nesting; the children of a pass are met one after another. -/
theorem search_finished (c : Cfg) {fuel : Nat} {romPrefix : Rom} {depth : Int} {s : State}
    (hs : fuel = 0 → s.ph = .idle) : ProgramFinished (search blockIssue c fuel romPrefix depth s) := by
  induction fuel generalizing romPrefix depth s with
  | zero => exact hs rfl
  | succ fuel ih =>
    obtain ⟨a, t, e, ht⟩ :=
      (attempts_finished (searchAttempt_finished c romPrefix depth) (n := attemptBudget) (s := s) nofun).exists
    rw [search, e]
    cases a with
    | none => exact ht
    | some p =>
      refine List.foldlRecOn (motive := ProgramFinished) p.collisions _ ht fun acc hacc flagged _ => ?_
      obtain ⟨found, u, rfl, hu⟩ := hacc.exists
      obtain ⟨more, v, ev, hv⟩ :=
        (ih (romPrefix := setRomBit flagged.2 flagged.1) (depth := flagged.1) fun _ => hu).exists
      dsimp only
      rw [ev]
      cases more with
      | none => exact hv
      | some more => exact hv

theorem searchAll_finished (c : Cfg) (topDepth : Int) (s : State) :
    ProgramFinished (searchAll blockIssue c topDepth s) := by
  obtain ⟨a, t, e, ht⟩ := (search_finished c (fuel := romBits + 1) (romPrefix := 0) (depth := topDepth) (s := s)
    nofun).exists
  rw [searchAll, e]
  cases a with
  | none => exact ht
  | some roms => exact ht

/-- The eight bus commands, the three reads and the check of one attempt, in the order of R95. -/
theorem temperatureAttempt_finished (c : Cfg) (famDs1822 : Byte) (rom : Rom) (s : State) :
    ProgramFinished (temperatureAttempt blockIssue c famDs1822 rom s) := by
  unfold temperatureAttempt
  iterate 8 refine onOk_primitive_finished rfl fun _ _ _ => ?_
  refine onWord_finished fun w1 _ _ => onWord_finished fun w2 _ _ => onByte_finished fun b8 _ hs => ?_
  exact checkItem_finished hs fun _ ht => ht

theorem readTemperature_finished (c : Cfg) (famDs1822 : Byte) (rom : Rom) (s : State) :
    ProgramFinished (readTemperature blockIssue c famDs1822 rom s) := by
  obtain ⟨a, t, e, ht⟩ :=
    (attempts_finished (temperatureAttempt_finished c famDs1822 rom) (n := attemptBudget) (s := s) nofun).exists
  rw [readTemperature, e]
  cases a with
  | none => exact ht
  | some temp => exact ht

/-- Settles O49: every primitive ends with `PH` idle, every check begins with `crcSet`, and the attempts and the nesting
are bounded. -/
theorem hostProgramsAlwaysFinish : Obligations.HostProgramsAlwaysFinish :=
  ⟨searchAll_finished, readTemperature_finished⟩

end Sys2Proof.Machine
end

section
/-! PROOF. The encoding (spec/30_encoding.md sections 1 and 4): each operation and its word, and the words that
are refused. -/

namespace Sys2Proof

/-- Decoding looks for the operand where the encoder put it, and the selector tells the operations apart. -/
theorem decode_encode (i : Instr) : decode (encode i) = .ok i := by
  cases i with
  | crcSet _ | fold _ | writeBit _ | writeByte _ => simp [encode, decode, extract_setWidth]
  | write4Bytes _ => simp [encode, decode]
  | _ => rfl

/-- A mask with the whole selector field keeps the selector and masks the operand. -/
theorem and_hostWord_mask (w : HostWord) (m : BitVec 32) :
    w &&& hostWord 0xF m = hostWord (HostWord.sel w) (HostWord.opd w &&& m) := by
  have hand : hostWord (HostWord.sel w) (HostWord.opd w) &&& hostWord 0xF m =
      hostWord (HostWord.sel w &&& BitVec.allOnes 4) (HostWord.opd w &&& m) := BitVec.and_append
  rwa [hostWord_fields, BitVec.and_allOnes] at hand

/-- The low bits of the operand are those under a mask of as many ones (R38). -/
theorem and_ones_eq_extract (opd : BitVec 32) (n : Nat) :
    opd &&& (BitVec.allOnes n).setWidth 32 = (opd.extractLsb' 0 n).setWidth 32 := by
  refine BitVec.eq_of_getLsbD_eq fun i hi => ?_
  simp [hi, Bool.and_comm]

/-- A mask of the selector alone, for the operations without an operand (R37). -/
theorem and_selectorMask (w : HostWord) : w &&& 0xF00000000 = hostWord (HostWord.sel w) 0 :=
  (and_hostWord_mask w 0).trans (congrArg _ BitVec.and_zero)

theorem and_bitMask (w : HostWord) :
    w &&& 0xF00000001 = hostWord (HostWord.sel w) (((HostWord.opd w).extractLsb' 0 1).setWidth 32) :=
  (and_hostWord_mask w 1).trans (congrArg _ (and_ones_eq_extract _ 1))

theorem and_byteMask (w : HostWord) :
    w &&& 0xF000000FF = hostWord (HostWord.sel w) (((HostWord.opd w).extractLsb' 0 8).setWidth 32) :=
  (and_hostWord_mask w 0xFF).trans (congrArg _ (and_ones_eq_extract _ 8))

theorem and_wholeMask (w : HostWord) : w &&& 0xFFFFFFFFF = hostWord (HostWord.sel w) (HostWord.opd w) :=
  (BitVec.and_allOnes (x := w)).trans (hostWord_fields w).symm

/-- The word of a decoded operation: the selector as it was, and the operand cut to its width (R37, R38). -/
theorem encode_of_decode {w : HostWord} {i : Instr} (h : decode w = .ok i) : encode i = w &&& encodingMask i := by
  obtain ⟨hs, rfl⟩ | ⟨hs, rfl⟩ | ⟨hs, rfl⟩ | ⟨hs, rfl⟩ | ⟨hs, rfl⟩ | ⟨hs, rfl⟩ | ⟨hs, rfl⟩ | ⟨hs, rfl⟩ | ⟨hs, rfl⟩ |
      ⟨hs, rfl⟩ := decode_ok_cases h <;>
    simp only [encode, encodingMask, and_selectorMask, and_bitMask, and_byteMask, and_wholeMask, hs]

/-- The selectors that name no operation: 0x3 to 0x7 and 0xF (R49). -/
abbrev ReservedSelector (sel : Selector) : Prop := sel ∈ [0x3#4, 0x4#4, 0x5#4, 0x6#4, 0x7#4, 0xF#4]

theorem reservedSelector_iff (sel : Selector) :
    ReservedSelector sel ↔ sel = 0x3 ∨ sel = 0x4 ∨ sel = 0x5 ∨ sel = 0x6 ∨ sel = 0x7 ∨ sel = 0xF := by
  simp [ReservedSelector]

theorem decode_of_reserved {w : HostWord} (h : ReservedSelector (HostWord.sel w)) :
    decode w = .error (.reservedSelector (HostWord.sel w)) := by
  obtain h | h | h | h | h | h := (reservedSelector_iff _).mp h <;> simp [decode, h]

/-- No selector is left over: each is assigned or reserved (R37, R49). -/
theorem selectorAssigned_of_not_reserved {w : HostWord} (h : ¬ ReservedSelector (HostWord.sel w)) :
    HostWord.selectorAssigned w = true := by
  change [0x0#4, 0x1#4, 0x2#4, 0x8#4, 0x9#4, 0xA#4, 0xB#4, 0xC#4, 0xD#4, 0xE#4].contains (HostWord.sel w) = true
  generalize HostWord.sel w = sel at h ⊢
  decide +revert

theorem decode_of_selectorAssigned {w : HostWord} (h : HostWord.selectorAssigned w = true) :
    ∃ i, decode w = .ok i := by
  have hsel : HostWord.sel w ∈ _ := List.contains_iff_mem.mp h
  simp only [List.mem_cons, List.not_mem_nil, or_false] at hsel
  obtain h | h | h | h | h | h | h | h | h | h := hsel <;> simp [decode, h]

/-- A word is no operation exactly when its selector is reserved, and the error names the selector (R49). -/
theorem decode_error_iff {w : HostWord} {e : DecodeError} :
    decode w = .error e ↔ ReservedSelector (HostWord.sel w) ∧ e = .reservedSelector (HostWord.sel w) := by
  constructor
  · intro he
    by_cases h : ReservedSelector (HostWord.sel w)
    · exact ⟨h, Except.error.inj (he.symm.trans (decode_of_reserved h))⟩
    · obtain ⟨i, hi⟩ := decode_of_selectorAssigned (selectorAssigned_of_not_reserved h)
      cases hi.symm.trans he
  · rintro ⟨h, rfl⟩
    exact decode_of_reserved h

/-- Settles O1: each word carries its operation's selector, and its operand where decoding looks for it. -/
theorem decodeOfEncodeIsTheOperation : Obligations.DecodeOfEncodeIsTheOperation := decode_encode

/-- Settles O2: the mask is the whole selector field and the operand's width. -/
theorem encodeOfDecodeKeepsTheMaskedBits : Obligations.EncodeOfDecodeKeepsTheMaskedBits :=
  fun _ _ => encode_of_decode

/-- Settles O3: a selector is either assigned, and then the word decodes, or reserved, and then the error names it. -/
theorem decodeRefusesExactlyReservedSelectors : Obligations.DecodeRefusesExactlyReservedSelectors := by
  intro w sel
  rw [decode_error_iff, ← reservedSelector_iff]
  constructor
  · rintro ⟨hres, heq⟩
    cases heq
    exact ⟨rfl, hres⟩
  · rintro ⟨rfl, hres⟩
    exact ⟨hres, rfl⟩

/-- Settles O4: the ten words are closed terms, which decoding evaluates. -/
theorem printedHostWordsDecodeAsPrinted : Obligations.PrintedHostWordsDecodeAsPrinted := by
  unfold Obligations.PrintedHostWordsDecodeAsPrinted
  decide

end Sys2Proof
end

section
/-! PROOF. The step function of unit CRC (spec/40_crc.md section 2): it is linear, it annihilates its own accumulator,
it is injective, and what that makes of the folds of a list of bytes. -/

namespace Sys2Proof.Machine

/-- One bit position is linear: the shift is, and two equal bits cancel their 0x8C (R59). -/
theorem foldBit_xor (a1 a2 : Byte) (t1 t2 : Bool) :
    foldBit (a1 ^^^ a2) (t1 ^^ t2) = foldBit a1 t1 ^^^ foldBit a2 t2 := by
  have hbit : (if t1 ^^ t2 then 0x8C else 0x00 : Byte) =
      (if t1 then 0x8C else 0x00) ^^^ (if t2 then 0x8C else 0x00) := by
    cases t1 <;> cases t2 <;> rfl
  rw [foldBit_eq_shift_xor, foldBit_eq_shift_xor, foldBit_eq_shift_xor, hbit, BitVec.ushiftRight_xor_distrib]
  ac_rfl

/-- The bit position `i` of a fold of `byte`, on the running value `acc` (R55). -/
def foldPosition (byte acc : Byte) (i : Nat) : Byte := foldBit acc (acc.getLsbD 0 ^^ byte.getLsbD i)

theorem foldStepIn_eq_foldl (order : FoldOrder) (acc byte : Byte) :
    foldStepIn order acc byte = (FoldOrder.positions order).foldl (foldPosition byte) acc := rfl

theorem foldPosition_xor (b1 b2 a1 a2 : Byte) (i : Nat) :
    foldPosition (b1 ^^^ b2) (a1 ^^^ a2) i = foldPosition b1 a1 i ^^^ foldPosition b2 a2 i := by
  have htest : ((a1 ^^^ a2).getLsbD 0 ^^ (b1 ^^^ b2).getLsbD i) =
      ((a1.getLsbD 0 ^^ b1.getLsbD i) ^^ (a2.getLsbD 0 ^^ b2.getLsbD i)) := by
    rw [BitVec.getLsbD_xor, BitVec.getLsbD_xor, Bool.xor_assoc, Bool.xor_assoc, Bool.xor_left_comm (a2.getLsbD 0)]
  rw [foldPosition, htest, foldBit_xor]
  rfl

/-- Bit 7 of a position's result is the tested bit, since the shift leaves zero there (R58). -/
theorem foldPosition_getLsbD_seven (byte acc : Byte) (i : Nat) :
    (foldPosition byte acc i).getLsbD 7 = (acc.getLsbD 0 ^^ byte.getLsbD i) := by
  rw [foldPosition, foldBit_eq_shift_xor]
  cases acc.getLsbD 0 ^^ byte.getLsbD i <;> simp

/-- A position can be undone: bit 7 gives the tested bit back, and with the byte's bit that gives back the low bit the
shift lost. -/
theorem foldPosition_injective (byte : Byte) (i : Nat) : Function.Injective (foldPosition byte · i) := by
  intro a1 a2 h
  have htest : (a1.getLsbD 0 ^^ byte.getLsbD i) = (a2.getLsbD 0 ^^ byte.getLsbD i) := by
    simpa only [foldPosition_getLsbD_seven] using congrArg (BitVec.getLsbD · 7) h
  have hlow : a1.getLsbD 0 = a2.getLsbD 0 := Bool.xor_left_inj.mp htest
  have hshift : a1 >>> 1 = a2 >>> 1 := by
    simpa only [foldPosition, foldBit_eq_shift_xor, htest, BitVec.xor_left_inj] using h
  refine BitVec.eq_of_getLsbD_eq fun j _ => ?_
  cases j with
  | zero => exact hlow
  | succ j => simpa [Nat.add_comm] using congrArg (BitVec.getLsbD · j) hshift

theorem foldStep8_xor (a1 a2 b1 b2 : Byte) :
    foldStep8 (a1 ^^^ a2) (b1 ^^^ b2) = foldStep8 a1 b1 ^^^ foldStep8 a2 b2 := by
  simp only [foldStep8, foldStepIn_eq_foldl]
  induction FoldOrder.positions foldOrder generalizing a1 a2 with
  | nil => rfl
  | cons i is ih => rw [List.foldl_cons, foldPosition_xor, ih]; rfl

/-- A position that finds the byte itself, shifted down to bit `i`, tests a bit against itself and only shifts. -/
theorem foldPosition_shifted (byte : Byte) (i : Nat) : foldPosition byte (byte >>> i) i = byte >>> (i + 1) := by
  simp [foldPosition, foldBit_eq_shift_xor, BitVec.shiftRight_add]

/-- Folding the accumulator into itself leaves zero: in ascending order every position only shifts (R60). -/
theorem foldStep8_self (acc : Byte) : foldStep8 acc acc = 0x00 := by
  have hshift : ∀ n, (List.range n).foldl (foldPosition acc) acc = acc >>> n := by
    intro n
    induction n with
    | zero => rfl
    | succ n ih => rw [List.range_succ, List.foldl_append, ih, List.foldl_cons, foldPosition_shifted, List.foldl_nil]
  exact (hshift 8).trans (BitVec.ushiftRight_eq_zero (Nat.le_refl 8))

/-- The step function depends on `acc ^ byte` only: the accumulator folded into itself leaves nothing (R59). -/
theorem foldStep8_eq_of_xor (acc byte : Byte) : foldStep8 acc byte = foldStep8 0x00 (acc ^^^ byte) :=
  calc foldStep8 acc byte
    _ = foldStep8 (acc ^^^ 0x00) (acc ^^^ (acc ^^^ byte)) := by simp
    _ = foldStep8 acc acc ^^^ foldStep8 0x00 (acc ^^^ byte) := foldStep8_xor acc 0x00 acc (acc ^^^ byte)
    _ = foldStep8 0x00 (acc ^^^ byte) := by simp [foldStep8_self]

/-- The accumulator and the byte play the same part in the step function (R59). -/
theorem foldStep8_comm (acc byte : Byte) : foldStep8 acc byte = foldStep8 byte acc := by
  rw [foldStep8_eq_of_xor, foldStep8_eq_of_xor byte, BitVec.xor_comm]

/-- For a fixed byte the step function loses nothing of the accumulator (R61). -/
theorem foldStep8_injective (byte : Byte) : Function.Injective (foldStep8 · byte) := by
  simp only [foldStep8, foldStepIn_eq_foldl]
  induction FoldOrder.positions foldOrder with
  | nil => exact Function.injective_id
  | cons i is ih => exact ih.comp (foldPosition_injective byte i)

/-- Folding a list loses nothing of the start value (R61). -/
theorem foldBytes_injective (bytes : List Byte) : Function.Injective (foldBytes · bytes) := by
  induction bytes with
  | nil => exact Function.injective_id
  | cons b bs ih => exact ih.comp (foldStep8_injective b)

/-- Two lists that differ in one byte fold differently (R61). -/
theorem foldBytes_ne_of_one_changed {x y : Byte} (h : x ≠ y) (start : Byte) (before after : List Byte) :
    foldBytes start (before ++ x :: after) ≠ foldBytes start (before ++ y :: after) := by
  intro he
  simp only [foldBytes, List.foldl_append, List.foldl_cons] at he
  have hstep : foldStep8 (foldBytes start before) x = foldStep8 (foldBytes start before) y :=
    foldBytes_injective after he
  rw [foldStep8_comm, foldStep8_comm _ y] at hstep
  exact h (foldStep8_injective _ hstep)

/-- On a written accumulator one `fold` per byte leaves the fold of the list (R62). -/
theorem runOps_fold {s : State} (h : s.crcWritten = true) (bytes : List Byte) :
    ∃ t, runOps (bytes.map .fold) s = .next t ∧ t.crcWritten = true ∧ t.crc = foldBytes s.crc bytes := by
  induction bytes generalizing s with
  | nil => exact ⟨s, rfl, h, rfl⟩
  | cons b bs ih =>
    rw [List.map_cons, runOps, exec_fold_of_written h]
    exact ih rfl

/-- After `crcSet`, whatever the state was (R53, R62). -/
theorem runOps_crcSet_fold (start : Byte) (bytes : List Byte) (s : State) :
    ∃ t, runOps (.crcSet start :: bytes.map .fold) s = .next t ∧ t.crcWritten = true ∧
      t.crc = foldBytes start bytes :=
  runOps_fold (s := (s.setCrc start).complete none) rfl bytes

/-- One more fold, of the accumulator itself, and the item verifies (R60). -/
theorem runOps_fold_self_verify {s : State} (h : s.crcWritten = true) :
    ∃ t, runOps [.fold s.crc, .verify] s = .next t ∧ t.crc = 0x00 ∧ t.outcome = some (.ok none) := by
  have hzero : ((s.setCrc (foldStep8 s.crc s.crc)).complete (some (.crc (foldStep8 s.crc s.crc)))).crc = 0x00 :=
    foldStep8_self s.crc
  refine ⟨State.complete _ none, ?_, hzero, rfl⟩
  rw [runOps, exec_fold_of_written h]
  dsimp only
  rw [runOps, exec_verify_of_zero rfl hzero]
  rfl

/-- Settles O14: the tap, the set bit and the cleared bit come to one exclusive-or after the shift. -/
theorem foldBitIsShiftThenXor8C : Obligations.FoldBitIsShiftThenXor8C := foldBit_eq_shift_xor

/-- Settles O15: each bit position is linear, and the accumulator folded into itself leaves zero. -/
theorem foldStepIsLinear : Obligations.FoldStepIsLinear := ⟨foldStep8_xor, foldStep8_eq_of_xor⟩

/-- Settles O16: the folds leave the fold of the list, and folding the accumulator into itself leaves zero. -/
theorem dataThenItsCheckByteVerifies : Obligations.DataThenItsCheckByteVerifies := by
  intro start bytes s
  obtain ⟨t, ht, hw, -⟩ := runOps_crcSet_fold start bytes s
  exact ⟨t, ht, runOps_fold_self_verify hw⟩

/-- Settles O17: the fold of the changed byte differs, and no later fold loses the difference. -/
theorem oneChangedByteChangesTheAccumulator : Obligations.OneChangedByteChangesTheAccumulator := by
  intro start x y before after s t u hxy ht hu
  obtain ⟨t', ht', -, htcrc⟩ := runOps_crcSet_fold start (before ++ x :: after) s
  obtain ⟨u', hu', -, hucrc⟩ := runOps_crcSet_fold start (before ++ y :: after) s
  cases ht.symm.trans ht'
  cases hu.symm.trans hu'
  rw [htcrc, hucrc]
  exact foldBytes_ne_of_one_changed hxy start before after

end Sys2Proof.Machine
end

section
/-! PROOF. The seven primitives (spec/42_bus_primitives.md section 2, spec/41_codec_exchange.md sections 2 and 3): how
each completes, what a failed write or a wrong header comes to, and the frame of every outcome. -/

namespace Sys2Proof.Machine

/-- Two good transfers and a mirrored reply: a whole exchange that ends `Ok` (R74, R75). -/
theorem runPrimitive_completes {x : Exchange} {s : State} (ext : Frame → Option Value)
    (hboth : BothSucceed s (commandFrame x) x.delay)
    (hm : Mirrors x.depth (commandFrame x) (readAnswerTo s (commandFrame x) x.delay).data) :
    runPrimitive x ext s =
      afterExchange s (commandFrame x) x.delay (.ok (ext (readAnswerTo s (commandFrame x) x.delay).data)) := by
  obtain ⟨hw, hr⟩ := (bothSucceed_iff_not_transferFailed _ _ _).mp hboth
  exact runPrimitive_ok x ext s hw hr hm

/-- A failed write: the frame in `OUT`, zeros in `IN`, one write on the channel and a `TransportError` (R68, R74). -/
theorem runPrimitive_of_write_failed {x : Exchange} {s : State} (ext : Frame → Option Value)
    (hw : TransferFailed (writeAnswerTo s (commandFrame x)).st (writeAnswerTo s (commandFrame x)).n) :
    ∃ code text, runPrimitive x ext s =
      { s with
        out := commandFrame x
        inb := zeroFrame
        ph := .idle
        outcome := some (.error (.transportError code text))
        writeAnswers := s.writeAnswers.tail
        draws := s.draws + 1
        tpLog := s.tpLog ++ [writeEvent s (commandFrame x)] } := by
  obtain ⟨code, text, e⟩ := transferError_kind (writeAnswerTo s (commandFrame x)).st
    (writeAnswerTo s (commandFrame x)).desc (memWrite (prepare x s)).2
  exact ⟨code, text, by rw [runPrimitive_write_failed x ext s hw, e]⟩

/-- Every echo depth takes in the header (R72). -/
theorem Mirrors.header {d : EchoDepth} {sent reply : Frame} (h : Mirrors d sent reply) :
    reply.b0 = sent.b0 ∧ reply.b1 = sent.b1 :=
  ⟨h 0 (Nat.lt_add_right _ Nat.zero_lt_two), h 1 (Nat.lt_add_right _ Nat.one_lt_two)⟩

/-- The depth of the read-type primitives is the header alone (R72). -/
theorem mirrors_edRead {sent reply : Frame} (h0 : reply.b0 = sent.b0) (h1 : reply.b1 = sent.b1) :
    Mirrors edRead sent reply := by
  intro k hk
  match k, hk with
  | 0, _ => exact h0
  | 1, _ => exact h1

/-- The operand of `writeBit` as the byte the table of R42 writes. -/
theorem bitPayload_eq_ite (bit : BitVec 1) : bitPayload bit = if bit = 1 then 0x01 else 0x00 := by
  decide +revert

theorem commandFrame_writeBit (c : Cfg) (bit : BitVec 1) :
    commandFrame (writeBitExchange c bit) =
      ⟨magic, c.opcWBit, if bit = 1 then 0x01 else 0x00, 0x00, 0x00, 0x00, 0x00, 0x00⟩ := by
  rw [← bitPayload_eq_ite]
  rfl

/-- Four joined bytes, one after another, the last most significant (R29). -/
theorem joinBytes_eq_append (x0 x1 x2 x3 : Byte) : joinBytes x0 x1 x2 x3 = x3 ++ x2 ++ x1 ++ x0 := by
  refine BitVec.eq_of_getLsbD_eq fun i hi => ?_
  change _ = (x3 ++ x2 ++ x1 ++ x0 : BitVec (8 + 8 + 8 + 8)).getLsbD i
  simp only [joinBytes, BitVec.getLsbD_append, BitVec.getLsbD_or, BitVec.getLsbD_shiftLeft, BitVec.getLsbD_setWidth]
  interval_cases i <;> simp

/-- Settles O18: both transfers succeed and the comparison passes. -/
theorem resetCompletes : Obligations.ResetCompletes := by
  intro s f d hboth hm
  exact congrArg _ (runPrimitive_completes (x := resetExchange Config.cfg) noResult hboth hm)

/-- Settles O19: as O18, with the bit as a whole byte of the frame. -/
theorem writeBitCompletes : Obligations.WriteBitCompletes := by
  intro bit s f d hboth hm
  have hf : commandFrame (writeBitExchange Config.cfg bit) = f := commandFrame_writeBit Config.cfg bit
  rw [← hf] at hboth hm ⊢
  exact congrArg _ (runPrimitive_completes noResult hboth hm)

/-- Settles O20: both transfers succeed and the comparison passes. -/
theorem writeByteCompletes : Obligations.WriteByteCompletes := by
  intro b s f hboth hm
  exact congrArg _ (runPrimitive_completes (x := writeByteExchange Config.cfg b) noResult hboth hm)

/-- Settles O21: both transfers succeed and the comparison passes. -/
theorem write4BytesCompletes : Obligations.Write4BytesCompletes := by
  intro w s f hboth hm
  exact congrArg _ (runPrimitive_completes (x := write4BytesExchange Config.cfg w) noResult hboth hm)

/-- Settles O22: the comparison is of the header alone, and the result is positions 2 and 3 under the mask. -/
theorem read2BitPairCompletes : Obligations.Read2BitPairCompletes := by
  intro s f d m reply hboth h0 h1
  exact congrArg _ (runPrimitive_completes (x := read2BitPairExchange Config.cfg) (pairResult m) hboth
    (mirrors_edRead h0 h1))

/-- Settles O23: the comparison is of the header alone, and the result is position 2. -/
theorem readByteCompletes : Obligations.ReadByteCompletes := by
  intro s f reply hboth h0 h1
  exact congrArg _ (runPrimitive_completes (x := readByteExchange Config.cfg) byteResult hboth (mirrors_edRead h0 h1))

/-- Settles O24: the comparison is of the header alone, and the result is positions 2 to 5 joined. -/
theorem read4BytesCompletes : Obligations.Read4BytesCompletes := by
  intro s f reply hboth h0 h1
  rw [← joinBytes_eq_append]
  exact congrArg _ (runPrimitive_completes (x := read4BytesExchange Config.cfg) wordResult hboth
    (mirrors_edRead h0 h1))

/-- Settles O27: a failed write is the first of the ways an exchange ends. -/
theorem failedWriteSkipsDelayAndRead : Obligations.FailedWriteSkipsDelayAndRead := by
  rintro i ⟨f, d, e⟩ s hi hw
  obtain ⟨x, ext, hx, rfl, -, -, -⟩ := exec_of_busUse hi
  obtain ⟨code, text, hrun⟩ := runPrimitive_of_write_failed ext hw
  exact ⟨code, text, by rw [hx, hrun]; rfl⟩

/-- Settles O30: a reply that mirrored the command to any depth would have its header. -/
theorem wrongHeaderNeverPasses : Obligations.WrongHeaderNeverPasses := by
  intro i u s t hi ht hboth hheader
  refine (echoMismatchExactlyOnADifferingReply i u s t hi ht).1.mpr ⟨hboth, fun hm => ?_⟩
  obtain ⟨h0, h1⟩ := hm.header
  exact hheader.elim (absurd h0) (absurd h1)

/-- What a primitive leaves behind in every one of its outcomes (R74, R110). -/
structure PrimitiveFrame (s t : State) : Prop where
  crc : t.crc = s.crc
  crcWritten : t.crcWritten = s.crcWritten
  session : t.session = s.session
  hostOps : t.hostOps = s.hostOps
  writeAnswers : t.writeAnswers = s.writeAnswers.tail
  readAnswers : t.readAnswers = s.readAnswers ∨ t.readAnswers = s.readAnswers.tail
  ph : t.ph = .idle
  outcome : ∃ o, t.outcome = some o ∧ o ≠ .error .checksumMismatch

theorem runPrimitive_frame (x : Exchange) (ext : Frame → Option Value) (s : State) :
    PrimitiveFrame s (runPrimitive x ext s) := by
  obtain ⟨_, _, e⟩ | ⟨_, _, _, e⟩ | e | e := runPrimitive_cases x ext s <;> rw [e]
  · exact ⟨rfl, rfl, rfl, rfl, rfl, .inl rfl, rfl, _, rfl, nofun⟩
  · exact ⟨rfl, rfl, rfl, rfl, rfl, .inr rfl, rfl, _, rfl, nofun⟩
  · exact ⟨rfl, rfl, rfl, rfl, rfl, .inr rfl, rfl, _, rfl, nofun⟩
  · exact ⟨rfl, rfl, rfl, rfl, rfl, .inr rfl, rfl, _, rfl, nofun⟩

theorem exec_primitive_frame {i : Instr} {u : BusUse} {s t : State} (hi : busUse i = some u)
    (ht : exec i s = .next t) : PrimitiveFrame s t := by
  obtain ⟨x, ext, hx, -⟩ := exec_of_busUse hi
  rw [hx] at ht
  cases ht
  exact runPrimitive_frame x ext s

/-- Settles O25: every primitive is one exchange, which ends in every state. -/
theorem primitivesAlwaysEndWithAnOutcome : Obligations.PrimitivesAlwaysEndWithAnOutcome := by
  intro i u s hi
  obtain ⟨x, ext, hx, -⟩ := exec_of_busUse hi
  have hframe := runPrimitive_frame x ext s
  obtain ⟨o, ho, hne⟩ := hframe.outcome
  exact ⟨_, o, hx s, hframe.ph, ho, hne⟩

/-- Settles O36: read off the four ways an exchange ends. -/
theorem primitivesLeaveCrcAndSessionAlone : Obligations.PrimitivesLeaveCrcAndSessionAlone := by
  intro i u s t hi ht
  have h := exec_primitive_frame hi ht
  exact ⟨h.crc, h.crcWritten, h.session, h.hostOps, h.writeAnswers, h.readAnswers⟩

end Sys2Proof.Machine
end

section
/-! PROOF. The ten operations together (spec/60_exceptions.md section 3): when one faults, the frame of unit CRC, and what
is left after an error. -/

namespace Sys2Proof.Machine

/-- An operation faults exactly when it reads an unwritten `CRC` (R10, R113; log 16). -/
theorem exec_fault_iff {i : Instr} {s : State} {r : Fault} :
    exec i s = .fault r ↔ r = .crcUnwritten ∧ s.crcWritten = false ∧ ReadsCrc i := by
  by_cases h : ReadsCrc i → s.crcWritten = true
  · obtain ⟨t, ht, -⟩ := exec_completes h
    rw [ht]
    refine iff_of_false nofun ?_
    rintro ⟨-, hw, hi⟩
    cases hw.symm.trans (h hi)
  · obtain ⟨hi, hw⟩ := Classical.not_imp.mp h
    rw [exec_of_unwritten hi hw]
    constructor
    · intro e
      cases e
      exact ⟨rfl, Bool.eq_false_of_not_eq_true hw, hi⟩
    · rintro ⟨rfl, -⟩
      rfl

theorem exec_ne_refused (i : Instr) (s : State) (r : Refusal) : exec i s ≠ .refused r := by
  by_cases h : ReadsCrc i → s.crcWritten = true
  · obtain ⟨t, ht, -⟩ := exec_completes h
    rw [ht]
    nofun
  · obtain ⟨hi, hw⟩ := Classical.not_imp.mp h
    rw [exec_of_unwritten hi hw]
    nofun

/-- An operation that reads `CRC` and answers a next state has found it written. -/
theorem crcWritten_of_exec_next {i : Instr} {s t : State} (hi : ReadsCrc i) (ht : exec i s = .next t) :
    s.crcWritten = true := by
  by_contra hw
  cases (exec_of_unwritten hi hw).symm.trans ht

/-- Every way the three operations of unit CRC can answer a next state (R53, R54, R57). -/
theorem exec_crc_cases {i : Instr} {s t : State} (hi : busUse i = none) (ht : exec i s = .next t) :
    (∃ a, i = .crcSet a ∧ t = (s.setCrc a).complete none) ∨
      (∃ b, i = .fold b ∧ s.crcWritten = true ∧
        t = (s.setCrc (foldStep8 s.crc b)).complete (some (.crc (foldStep8 s.crc b)))) ∨
      (i = .verify ∧ s.crcWritten = true ∧ (t = s.complete none ∨ t = s.raise .checksumMismatch)) := by
  cases i with
  | crcSet a => exact .inl ⟨a, rfl, Host.Outcome.next.inj (ht.symm.trans (exec_crcSet a s))⟩
  | fold b =>
    have hw := crcWritten_of_exec_next (.inl ⟨b, rfl⟩) ht
    exact .inr (.inl ⟨b, rfl, hw, Host.Outcome.next.inj (ht.symm.trans (exec_fold_of_written hw b))⟩)
  | verify =>
    have hw := crcWritten_of_exec_next (.inr rfl) ht
    refine .inr (.inr ⟨rfl, hw, ?_⟩)
    by_cases hz : s.crc = 0x00
    · exact .inl (Host.Outcome.next.inj (ht.symm.trans (exec_verify_of_zero hw hz)))
    · exact .inr (Host.Outcome.next.inj (ht.symm.trans (exec_verify_of_nonzero hw hz)))
  | _ => cases hi

/-- No other operation than `crcSet` and `fold` writes `CRC` (R10). -/
theorem exec_keeps_crc {i : Instr} {s t : State} (ht : exec i s = .next t) (hset : ∀ a, i ≠ .crcSet a)
    (hfold : ∀ b, i ≠ .fold b) : t.crc = s.crc ∧ t.crcWritten = s.crcWritten := by
  cases hi : busUse i with
  | some u =>
    have h := exec_primitive_frame hi ht
    exact ⟨h.crc, h.crcWritten⟩
  | none =>
    obtain ⟨a, hi, -⟩ | ⟨b, hi, -⟩ | ⟨-, -, rfl | rfl⟩ := exec_crc_cases hi ht
    · exact absurd hi (hset a)
    · exact absurd hi (hfold b)
    · exact ⟨rfl, rfl⟩
    · exact ⟨rfl, rfl⟩

/-- An error leaves `PH` idle and `CRC` as it was (R110). -/
theorem exec_error_leaves {i : Instr} {s t : State} {e : OpError} (ht : exec i s = .next t)
    (he : t.outcome = some (.error e)) : t.ph = .idle ∧ t.crc = s.crc ∧ t.crcWritten = s.crcWritten := by
  cases hi : busUse i with
  | some u =>
    have h := exec_primitive_frame hi ht
    exact ⟨h.ph, h.crc, h.crcWritten⟩
  | none =>
    -- of unit CRC only `verify` raises
    obtain ⟨a, -, rfl⟩ | ⟨b, -, -, rfl⟩ | ⟨-, -, rfl | rfl⟩ := exec_crc_cases hi ht
    · cases he
    · cases he
    · cases he
    · exact ⟨rfl, rfl, rfl⟩

/-- Settles O12: an operation completes unless it reads an unwritten `CRC`, and then it faults. -/
theorem onlyFoldAndVerifyFaultAndOnlyUnwritten : Obligations.OnlyFoldAndVerifyFaultAndOnlyUnwritten :=
  fun i s => ⟨fun _ => exec_fault_iff, exec_ne_refused i s⟩

/-- Settles O13: `verify` only reads `CRC`, and the exchange never touches it. -/
theorem onlyCrcSetAndFoldWriteTheAccumulator : Obligations.OnlyCrcSetAndFoldWriteTheAccumulator :=
  fun _ _ _ => exec_keeps_crc

/-- Settles O37: read off the ways the three operations can answer. -/
theorem crcOperationsNeverTouchTheChannel : Obligations.CrcOperationsNeverTouchTheChannel := by
  intro i s t hi ht
  obtain ⟨a, -, rfl⟩ | ⟨b, -, -, rfl⟩ | ⟨-, -, rfl | rfl⟩ := exec_crc_cases hi ht
  · exact ⟨rfl, rfl, rfl, rfl, rfl, rfl, rfl, rfl, .inl rfl⟩
  · exact ⟨rfl, rfl, rfl, rfl, rfl, rfl, rfl, rfl, .inl rfl⟩
  · exact ⟨rfl, rfl, rfl, rfl, rfl, rfl, rfl, rfl, .inl rfl⟩
  · exact ⟨rfl, rfl, rfl, rfl, rfl, rfl, rfl, rfl, .inr ⟨rfl, rfl⟩⟩

/-- Settles O39: after an error `PH` is idle, so a step accepts the next word. -/
theorem errorsLeaveTheBlockReady : Obligations.ErrorsLeaveTheBlockReady := by
  intro i s t e ht he
  obtain ⟨hph, hcrc, hwritten⟩ := exec_error_leaves ht he
  exact ⟨hph, hcrc, hwritten, fun w rest j hops hd => step_of_decode_ok hops hph hd⟩

end Sys2Proof.Machine
end

section
/-! PROOF. A step (spec/30_encoding.md section 4, spec/70_reset_and_hazards.md): what it does from each state, when it
stops, and what it keeps of a session. -/

namespace Sys2Proof.Machine

theorem step_of_no_ops {s : State} (h : s.hostOps = []) : step s = .next s := by
  simp [step, nextIssued, h]

theorem step_of_busy {s : State} {w : HostWord} {rest : List HostWord} (hph : s.ph ≠ .idle)
    (hops : s.hostOps = w :: rest) : step s = .fault .sessionBusy := by
  simp [step, nextIssued, hops, hph]

theorem decode_of_decodeTableWord {nbits w : Nat} {i : Instr} (h : decodeTableWord nbits w = some i) :
    decode (BitVec.ofNat 36 (w % 2 ^ nbits)) = .ok i := by
  unfold decodeTableWord decodeNat at h
  split at h
  case h_1 j hj =>
    obtain rfl : j = i := Option.some.inj h
    split at hj
    · exact hj
    · cases hj
  case h_2 => cases h

/-- A step that answers a next state has found nothing issued, or has run the first word's operation from rest. -/
theorem step_next_cases {s t : State} (ht : step s = .next t) :
    (s.hostOps = [] ∧ t = s) ∨
      ∃ w rest i, s.hostOps = w :: rest ∧ s.ph = .idle ∧ decode w = .ok i ∧
        exec i { s with hostOps := rest } = .next t := by
  cases hops : s.hostOps with
  | nil => exact .inl ⟨rfl, Host.Outcome.next.inj (ht.symm.trans (step_of_no_ops hops))⟩
  | cons w rest =>
    by_cases hph : s.ph = .idle
    · cases hd : decode w with
      | ok i => exact .inr ⟨w, rest, i, rfl, hph, hd, (step_of_decode_ok hops hph hd).symm.trans ht⟩
      | error e => cases (step_of_decode_error hops hph hd).symm.trans ht
    · cases (step_of_busy hph hops).symm.trans ht

/-- No operation touches the session record or the host's list (R13). -/
theorem exec_keeps_session {i : Instr} {s t : State} (ht : exec i s = .next t) :
    t.session = s.session ∧ t.hostOps = s.hostOps := by
  cases hi : busUse i with
  | some u =>
    have h := exec_primitive_frame hi ht
    exact ⟨h.session, h.hostOps⟩
  | none =>
    obtain ⟨-, -, hsession, hops, -⟩ := crcOperationsNeverTouchTheChannel i s t hi ht
    exact ⟨hsession, hops⟩

/-! ### The session invariant -/

/-- A primitive's frame is one of the seven rows of the table (R42, R48). -/
theorem frameEmittable_of_busUse {i : Instr} {u : BusUse} (h : busUse i = some u) : FrameEmittable u.frame := by
  cases i with
  | crcSet a => cases h
  | fold b => cases h
  | verify => cases h
  | reset => cases h; exact ⟨rfl, rfl, rfl, .inl ⟨rfl, rfl, rfl, rfl, rfl⟩⟩
  | writeBit bit =>
    cases h
    exact ⟨rfl, rfl, rfl, .inr (.inl ⟨rfl, (ite_eq_or_eq _ _ _).symm, rfl, rfl, rfl⟩)⟩
  | writeByte b => cases h; exact ⟨rfl, rfl, rfl, .inr (.inr (.inl ⟨rfl, rfl, rfl, rfl⟩))⟩
  | write4Bytes w => cases h; exact ⟨rfl, rfl, rfl, .inr (.inr (.inr (.inl rfl)))⟩
  | read2BitPair =>
    cases h
    exact ⟨rfl, rfl, rfl, .inr (.inr (.inr (.inr (.inl ⟨rfl, rfl, rfl, rfl, rfl⟩))))⟩
  | readByte =>
    cases h
    exact ⟨rfl, rfl, rfl, .inr (.inr (.inr (.inr (.inr (.inl ⟨rfl, rfl, rfl, rfl, rfl⟩)))))⟩
  | read4Bytes =>
    cases h
    exact ⟨rfl, rfl, rfl, .inr (.inr (.inr (.inr (.inr (.inr ⟨rfl, rfl, rfl, rfl, rfl⟩)))))⟩

/-- A legal log begins with a write, so a write before it is a failed one, alone in its exchange (R68). -/
theorem tpLogLegal_write_cons {handle : Nat} {f : Frame} {log : List TpEvent} (hf : FrameEmittable f)
    (hlog : TpLogLegal handle log) : TpLogLegal handle (.write handle f 5000 :: log) := by
  cases log with
  | nil => exact ⟨rfl, rfl, hf, trivial⟩
  | cons e log =>
    cases e with
    | write => exact ⟨rfl, rfl, hf, hlog⟩
    | delay => exact hlog.elim
    | read => exact hlog.elim

/-- Legal logs one after another are a legal log: the second begins with a write, so a lone write before it
stays alone. -/
theorem TpLogLegal.append {handle : Nat} {log more : List TpEvent} (hlog : TpLogLegal handle log)
    (hmore : TpLogLegal handle more) : TpLogLegal handle (log ++ more) := by
  induction log using TpLogLegal.induct with
  | case1 => exact hmore
  | case2 h f t ms h' t' rest ih =>
    obtain ⟨hh, ht, hf, hms, hh', ht', hrest⟩ := hlog
    exact ⟨hh, ht, hf, hms, hh', ht', ih hrest⟩
  | case3 h f t rest hlone ih =>
    rw [TpLogLegal.eq_3 handle h f t rest hlone] at hlog
    obtain ⟨rfl, rfl, hf, hrest⟩ := hlog
    exact tpLogLegal_write_cons hf (ih hrest)
  | case4 => exact hlog.elim
  | case5 => exact hlog.elim

/-- What a primitive puts on the channel is a legal log of one exchange (R28, R64, R68). -/
theorem tpLogLegal_write {s : State} {f : Frame} (hf : FrameEmittable f) :
    TpLogLegal s.session.handle [writeEvent s f] :=
  ⟨rfl, rfl, hf, trivial⟩

theorem tpLogLegal_exchange {s : State} {f : Frame} (hf : FrameEmittable f) (d : DelayMs) :
    TpLogLegal s.session.handle (exchangeEvents s f d) := by
  refine ⟨rfl, rfl, hf, ?_, rfl, rfl, trivial⟩
  cases d with
  | ms1 => exact .inl rfl
  | ms2 => exact .inr rfl

/-- Every operation keeps the channel's log legal. -/
theorem exec_keeps_tpLogLegal {i : Instr} {s t : State} (hlog : TpLogLegal s.session.handle s.tpLog)
    (ht : exec i s = .next t) : TpLogLegal t.session.handle t.tpLog := by
  rw [(exec_keeps_session ht).1]
  cases hi : busUse i with
  | some u =>
    have hf := frameEmittable_of_busUse hi
    obtain h | h := (oneWriteAndAtMostOneRead i u s t hi ht).1 <;> rw [h]
    · exact hlog.append (tpLogLegal_write hf)
    · exact hlog.append (tpLogLegal_exchange hf u.delay)
  | none =>
    obtain ⟨-, -, -, -, -, -, -, h, -⟩ := crcOperationsNeverTouchTheChannel i s t hi ht
    rwa [h]

/-- An operation leaves an outcome, and `PH` idle where it was idle. -/
theorem exec_next_completed {i : Instr} {s t : State} (ht : exec i s = .next t) : Completed i s t := by
  obtain ⟨t', ht', hc⟩ := exec_completes fun hi => crcWritten_of_exec_next hi ht
  cases ht.symm.trans ht'
  exact hc

theorem exec_keeps_sessionInv {i : Instr} {s t : State} (hph : s.ph = .idle)
    (hlog : TpLogLegal s.session.handle s.tpLog) (ht : exec i s = .next t) : SessionInv t := by
  have hc := exec_next_completed ht
  refine ⟨hc.ph (.inl hph), exec_keeps_tpLogLegal hlog ht, fun hnone => ?_⟩
  obtain ⟨o, ho⟩ := hc.outcome
  cases ho.symm.trans hnone

/-- Settles O5: at rest, a step runs the first word's operation. -/
theorem stepRunsTheIssuedOperation : Obligations.StepRunsTheIssuedOperation :=
  fun _ _ _ _ hph hops hd => step_of_decode_ok hops hph hd

/-- Settles O6: the placed word goes first in the host's list, and taking it restores the list. -/
theorem stepRunsThePlacedWord : Obligations.StepRunsThePlacedWord :=
  fun _ _ _ _ hph hd => step_of_decode_ok rfl hph (decode_of_decodeTableWord hd)

/-- Settles O7: one lemma for each of the three ways to run nothing. -/
theorem stepWithoutARunnableOperation : Obligations.StepWithoutARunnableOperation :=
  ⟨fun _ => step_of_no_ops,
    fun _ _ _ hph hops hres => step_of_decode_error hops hph (decode_of_reserved hres),
    fun _ _ _ => step_of_busy⟩

/-- Settles O8: the values of `State.reset`. -/
theorem sessionStartValues : Obligations.SessionStartValues := ⟨rfl, rfl, rfl⟩

/-- Settles O40: a step changes nothing or runs one operation, which adds at most one legal exchange to the log. -/
theorem stepKeepsTheSessionInvariant : Obligations.StepKeepsTheSessionInvariant := by
  intro s t hinv ht
  obtain ⟨-, rfl⟩ | ⟨w, rest, i, -, hph, -, ht⟩ := step_next_cases ht
  · exact hinv
  · obtain ⟨-, hlog, -⟩ := hinv
    exact exec_keeps_sessionInv (s := { s with hostOps := rest }) hph hlog ht

/-- Settles O41: at session start the log is empty and nothing has ended. -/
theorem sessionStartMeetsTheInvariant : Obligations.SessionStartMeetsTheInvariant :=
  ⟨rfl, trivial, fun _ => ⟨rfl, rfl⟩⟩

/-- Settles O42: with `PH` idle a step stops in the running operation, which faults only on an unwritten `CRC`, or at a
word that is no operation. -/
theorem invariantSessionsStopOnlyForTheHostsMistakes : Obligations.InvariantSessionsStopOnlyForTheHostsMistakes := by
  rintro s ⟨hph, -⟩
  cases hops : s.hostOps with
  | nil => simp [step_of_no_ops hops]
  | cons w rest =>
    cases hd : decode w with
    | ok i =>
      rw [step_of_decode_ok hops hph hd]
      refine ⟨fun r hr => ?_, fun r hr => absurd hr (exec_ne_refused i _ r)⟩
      obtain ⟨rfl, hw, hi⟩ := exec_fault_iff.mp hr
      refine ⟨rfl, hw, w, rest, rfl, ?_⟩
      obtain ⟨b, rfl⟩ | rfl := hi
      · exact .inl ⟨b, hd⟩
      · exact .inr hd
    | error e =>
      obtain ⟨hres, -⟩ := decode_error_iff.mp hd
      rw [step_of_decode_error hops hph hd]
      exact ⟨nofun, fun r hr => ⟨w, rest, rfl, (Host.Outcome.refused.inj hr).symm, hres⟩⟩

/-- Settles O43: no operation touches the session record, and a step takes the word it runs from the host's list. -/
theorem stepKeepsTheSessionRecord : Obligations.StepKeepsTheSessionRecord := by
  intro s t ht
  obtain ⟨hops, rfl⟩ | ⟨w, rest, i, hops, -, -, ht⟩ := step_next_cases ht
  · exact ⟨rfl, by rw [hops]; rfl⟩
  · obtain ⟨hsession, hrest⟩ := exec_keeps_session ht
    exact ⟨hsession, by rw [hops]; exact hrest⟩

end Sys2Proof.Machine
end

section
/-! PROOF. The host's data forms (spec/43_host_sequences.md sections 3 and 4). -/

namespace Sys2Proof.Machine

theorem hexValue_hexDigit {d : Nat} (h : d < 16) : hexValue (hexDigit d) = some d := by
  interval_cases d <;> rfl

theorem length_hexDigits (n v : Nat) : (hexDigits n v).length = n := by
  induction n generalizing v with
  | zero => rfl
  | succ n ih => rw [hexDigits, List.length_append, ih]; rfl

/-- Reading on past `n` written digits takes up their value, that of the low `n` digits. -/
theorem readDigits_hexDigits_append (n v : Nat) (rest : List Char) (acc : Nat) :
    readDigits hexValue 16 (hexDigits n v ++ rest) acc = readDigits hexValue 16 rest (acc * 16 ^ n + v % 16 ^ n) := by
  induction n generalizing v rest with
  | zero => simp [hexDigits, Nat.mod_one]
  | succ n ih =>
    have hval : (acc * 16 ^ n + v / 16 % 16 ^ n) * 16 + v % 16 = acc * 16 ^ (n + 1) + v % 16 ^ (n + 1) := by
      rw [pow_succ', Nat.mod_mul]
      ring
    rw [hexDigits, List.append_assoc, ih, List.singleton_append, readDigits,
      hexValue_hexDigit (Nat.mod_lt v (by decide))]
    dsimp only
    rw [hval]

/-- Settles O44: the sixteen digits are read back to the value they were written from, which is below `16 ^ 16`. -/
theorem addressTextRoundTrips : Obligations.AddressTextRoundTrips := by
  intro rom
  have hread : readDigits hexValue 16 (romToText rom) 0 = some rom.toNat := by
    have hlt : rom.toNat < 16 ^ 16 := rom.isLt
    have h := readDigits_hexDigits_append 16 rom.toNat [] 0
    rwa [List.append_nil, Nat.zero_mul, Nat.zero_add, Nat.mod_eq_of_lt hlt] at h
  have hlen : (romToText rom).length = 16 := length_hexDigits 16 rom.toNat
  rw [romOfText, if_pos hlen, hread]
  exact congrArg _ (BitVec.ofNat_toNat 64 rom)

/-- Settles O45: one branch of the conversion for each kind of family. -/
theorem temperatureConversionByFamily : Obligations.TemperatureConversionByFamily := by
  intro famDs1822 family raw hparam
  refine ⟨fun h => ?_, fun h => ?_, fun h28 hpar h10 => ?_⟩
  · rw [convertTemperature, if_pos h]
    ring
  · have hother : ¬ (family = 0x28 ∨ family = famDs1822) := by
      rintro (h28 | hpar)
      · exact absurd (h.symm.trans h28) (by decide)
      · exact hparam (hpar.symm.trans h)
    rw [convertTemperature, if_neg hother, if_pos h]
    ring
  · rw [convertTemperature, if_neg (not_or.mpr ⟨h28, hpar⟩), if_neg h10]

end Sys2Proof.Machine
end
